-- ==== Sys2Proof/Word.lean ====
section
/-! DEFINITION. The three word types of the part: the byte of the frames and messages, the 16-bit
word of the configuration image, and the 32-bit timebase instant (00_scope.md, Time and Bytes). -/

namespace Sys2Proof

/-- One byte of a frame or of a valve channel message. -/
abbrev Byte := BitVec 8

/-- One 16-bit word: a word of the configuration image, a CRC, the cycle number. -/
abbrev Word16 := BitVec 16

/-- A timebase value: a count of 100 ns ticks that wraps modulo 2^32 (00_scope.md, Time). -/
abbrev Instant := BitVec 32

end Sys2Proof
end

