-- ==== Sys2Proof/Config.lean ====
section
/-! DEFINITION. What one part fixes: the sizes of the group, the ends of the saturating counts, the
fixed spans of the rules in ticks, and the one free value the spec leaves open. -/

namespace Sys2Proof.Config

/-- The valves of one 12-pulse group (00_scope.md, Valves and levels). -/
abbrev valveCount : Nat := 12

/-- The positions of one valve in the Level Table (R54). -/
abbrev positionCount : Nat := 80

/-- The words of one configuration image (R163). -/
abbrev imageWords : Nat := 64

/-- The attention sources of one link: TRIP, SYNC, MODE, LINK and twelve valves (R152). -/
abbrev sourceCount : Nat := 16

/-- Where an 8-bit count saturates. -/
abbrev count8 : Nat := 255

/-- Where a 16-bit count saturates. -/
abbrev count16 : Nat := 65535

/-- The last value of the table change counter (R59). -/
abbrev stampLimit : Nat := 4294967295

/-- The ticks from a reset's end to the end of an unanswered configuration read: 50 ms (R164). -/
abbrev loadingSpan : Nat := 500000

/-- The ticks a STORE may take: 100 ms (R166). -/
abbrev storeSpan : Nat := 1000000

/-- The ticks of silence after which an UP channel goes DOWN (R43). -/
abbrev channelSilence : Nat := 2000

/-- The ticks between a send on a channel and the next IDLE (R40). -/
abbrev idleSpan : Nat := 500

/-- The most ticks by which a report's stamp may lie before its arrival (R46). -/
abbrev stampSpan : Nat := 4000

/-- The consecutive valid messages that prove a DOWN channel (R44). -/
abbrev provingRun : Nat := 8

/-- The silence span of a link while no working configuration is in force (R145). -/
abbrev unconfiguredSilence : Nat := 40000

/-- One unit of TSIL and of TNOACT in ticks: 100 µs (R145, R149). -/
abbrev tickUnit : Nat := 1000

/-- The period estimate while no configuration is in force (R16). -/
abbrev resetPeriod : Nat := 200000

/-- FREE VALUE. The byte by which LOOK UP VALVE reports a channel's state, for UP (`true`) and for
DOWN (`false`): 09_service_requests.md gives the field one byte and states no codes for it
(assumption 8). -/
opaque channelStateCode : Bool → Byte

end Sys2Proof.Config
end

