-- ==== Sys2Proof/Syntax.lean ====
section
/-! DEFINITION. The commands of the block: one constructor of `Instr` for each row of
spec/opcode_table.json, with the row's operands. A command of a row that happens at a tick carries
the timebase value `t` of that tick (assumption 1). A frame or a message is carried with every bit
the line delivers, its CRC included, so that a damaged one is a command too. -/

namespace Sys2Proof

/-- The two control links (08_converter_control_links.md). -/
inductive Link | a | b
deriving DecidableEq, Repr

/-- The role a control system claims in a frame (R144). -/
inductive Role | standby | active
deriving DecidableEq, Repr

/-- A valve in firing order, from 0: the spec's valve number less 1 (00_scope.md, Valves and
levels). -/
abbrev Valve := Fin Config.valveCount

/-- One configuration image of 64 words (10_configuration_image_and_start_up.md). -/
abbrev Image := Vector Word16 Config.imageWords

/-- The two events that end a reset: the first high sample of the pin, which ends a pin reset, and the
stable supply, which ends a power-on reset (R164, R167). -/
inductive ResetEnd | pinHigh | supplyStable
deriving DecidableEq, Repr

/-- Why a STORE fails (R166). -/
inductive StoreFault | writeError | timeout
deriving DecidableEq, Repr

/-- The fields of an ORDER frame as received (Frame layouts): the address of byte 0; role, clear-trip
flag, the four unread bits and the requested mode of byte 1; α_order; the CRC bytes. -/
structure OrderFrame where
  address : BitVec 6
  role : Role
  clearTrip : Bool
  spare : BitVec 4
  mode : BitVec 2
  alpha : Word16
  crc : Word16
deriving DecidableEq, Repr

/-- What every SERVICE frame carries beside its request: the address of byte 0, the role and the
three unnamed bits of byte 1, and the CRC bytes as received (09_service_requests.md). -/
structure ServiceHead where
  address : BitVec 6
  role : Role
  spare : BitVec 3
  crc : Word16
deriving DecidableEq, Repr

/-- The commands: one constructor for each row of spec/opcode_table.json. -/
inductive Instr
  /-- POWER_ON_RESET: the supply is applied. -/
  | powerOnReset
  /-- RESET_PIN: the 40th consecutive low sample of the reset pin. -/
  | resetPin
  /-- RESET_END: the first high sample of the pin, or the supply is stable. The table gives the row no
  operand, so this one is the model's; left out it is the pin's (assumption 15). -/
  | resetEnd (event : ResetEnd := .pinHigh)
  /-- LOADING_READ_DONE: the configuration memory has returned the 64 words `words`. -/
  | loadingReadDone (t : Instant) (words : Image)
  /-- LOADING_TIMEOUT: 500,000 ticks in LOADING without all 64 words. -/
  | loadingTimeout (t : Instant)
  /-- CROSSING_CANDIDATE: the comparator input rises at `t`. -/
  | crossingCandidate (t : Instant)
  /-- CANDIDATE_DROPPED: the input is sampled low at `t`, within TCONF of the candidate. -/
  | candidateDropped (t : Instant)
  /-- CROSSING_CONFIRMED: the input has been high for TCONF ticks from the candidate. -/
  | crossingConfirmed (t : Instant)
  /-- DETECTOR_REARM: the input has been low for TCONF ticks. -/
  | detectorRearm (t : Instant)
  /-- DEADLINE_REACHED: the sync machine's deadline is reached. -/
  | deadlineReached (t : Instant)
  /-- TAKE_UP: the earliest queued zero of valve `j` is reached. -/
  | takeUp (t : Instant) (j : Valve)
  /-- FIRING_INSTANT: Fj of valve `j` is reached. -/
  | firingInstant (t : Instant) (j : Valve)
  /-- FORCED_FIRING: the quorum-wait expiry of valve `j` is reached. -/
  | forcedFiring (t : Instant) (j : Valve)
  /-- EXTINCTION_DEADLINE: Dj of valve `j` is reached. -/
  | extinctionDeadline (t : Instant) (j : Valve)
  /-- PULSE_REPORT: a message of kind 81 hex arrives on channel `j`; `body` is what follows the
  kind byte. -/
  | pulseReport (t : Instant) (j : Valve) (body : List Byte)
  /-- OIU_IDLE: a message of kind 82 hex arrives on channel `j`; `body` is what follows the kind
  byte. -/
  | oiuIdle (t : Instant) (j : Valve) (body : List Byte)
  /-- CHANNEL_DOWN: the silence limit of channel `j` is reached. -/
  | channelDown (t : Instant) (j : Valve)
  /-- VC12_IDLE: 500 ticks have passed since the last send on channel `j`. -/
  | vc12Idle (t : Instant) (j : Valve)
  /-- BYPASS_GATING: the gating expiry is reached. -/
  | bypassGating (t : Instant)
  /-- LINK_SILENCE: the silence limit of link `l` is reached. -/
  | linkSilence (t : Instant) (l : Link)
  /-- CONTROL_LOSS: the no-action limit is reached. -/
  | controlLoss (t : Instant)
  /-- ORDER_FRAME: a 6-byte frame of kind ORDER arrives on link `l`. -/
  | orderFrame (t : Instant) (l : Link) (f : OrderFrame)
  /-- REPLY_SENT: the reply on the line of link `l` has been sent. -/
  | replySent (t : Instant) (l : Link)
  /-- LOOK_UP_LEVEL: a service frame of code 1 for level (j, p). -/
  | lookUpLevel (t : Instant) (l : Link) (h : ServiceHead) (j p : Byte)
  /-- LOOK_UP_VALVE: a service frame of code 2 for valve j. -/
  | lookUpValve (t : Instant) (l : Link) (h : ServiceHead) (j : Byte)
  /-- SEEK: a service frame of code 3 to (j, p). -/
  | seek (t : Instant) (l : Link) (h : ServiceHead) (j p : Byte)
  /-- WALK: a service frame of code 4 with the stamp S. -/
  | walk (t : Instant) (l : Link) (h : ServiceHead) (since : BitVec 32)
  /-- RETIRE: a service frame of code 5 for level (j, p). -/
  | retire (t : Instant) (l : Link) (h : ServiceHead) (j p : Byte)
  /-- RESTORE: a service frame of code 6 for level (j, p). -/
  | restore (t : Instant) (l : Link) (h : ServiceHead) (j p : Byte)
  /-- CLEAR_COUNTS: a service frame of code 7 for level (j, p). -/
  | clearCounts (t : Instant) (l : Link) (h : ServiceHead) (j p : Byte)
  /-- CONFIG_READ: a service frame of code 8 for n words from word a. -/
  | configRead (t : Instant) (l : Link) (h : ServiceHead) (a n : Byte)
  /-- CONFIG_WRITE: a service frame of code 9 with eight data words, of which n are written. -/
  | configWrite (t : Instant) (l : Link) (h : ServiceHead) (a n : Byte) (data : Vector Word16 8)
  /-- CONFIG_APPLY: a service frame of code 10. -/
  | configApply (t : Instant) (l : Link) (h : ServiceHead)
  /-- CONFIG_STORE: a service frame of code 11. -/
  | configStore (t : Instant) (l : Link) (h : ServiceHead)
  /-- RESET: a service frame of code 12. -/
  | serviceReset (t : Instant) (l : Link) (h : ServiceHead)
  /-- STORE_COMPLETE: the configuration memory has taken the last word. -/
  | storeComplete (t : Instant)
  /-- STORE_FAILED: the memory reports a write error, or has not taken a word within 100 ms. -/
  | storeFailed (t : Instant) (why : StoreFault)
  /-- LOW_RUN_START: the first low sample of the input after a high one, in DISARMED. -/
  | lowRunStart (t : Instant)
  /-- LOW_RUN_BROKEN: a high sample before the low run has lasted TCONF ticks, in DISARMED. -/
  | lowRunBroken (t : Instant)
  /-- MESSAGE_OF_UNKNOWN_KIND: the message `msg` arrives on channel `j`, and its first byte is
  neither 81 hex nor 82 hex. -/
  | messageOfUnknownKind (t : Instant) (j : Valve) (msg : List Byte)
  /-- DISCARDED_FRAME_ARRIVES: the bytes `bytes` arrive as a frame on link `l`. -/
  | discardedFrameArrives (t : Instant) (l : Link) (bytes : List Byte)
deriving DecidableEq, Repr

end Sys2Proof
end

