-- ==== Sys2Proof/Machine/State.lean ====
section
/-! DEFINITION. The state of the part as plain data, block by block, and its values right after a
reset. Every field names the rule that gives it. The timebase value of a command is the `timebase`
field while the command is taken. -/

namespace Sys2Proof.Machine

open Sys2Proof

/-- Why a command stops the machine: no rule of the spec stops the part, so there is no reason. -/
inductive Fault
deriving DecidableEq, Repr

/-- Why a command is refused. -/
inductive Refusal
  /-- The command has no meaning in the model yet. Raised by `exec` alone; safe. No arm raises it. -/
  | notModelled (mnemonic : String)
deriving DecidableEq, Repr

/-! ## The Level Table -/

/-- The seven states of a level record (R54). -/
inductive LevelState | absent | unproven | sound | suspect | dark | faulted | retired
deriving DecidableEq, Repr

/-- The classes of a pulse report that reach the Level Table (R49). -/
inductive ReportClass | ind | pfi | lft
deriving DecidableEq, Repr

/-- One level record (R54), less its address and with the three optional parts of R55. -/
structure Level where
  state : LevelState := .absent
  miss : Nat := 0
  indicated : Bool := false
  pfi : Bool := false
  pfiCount : Nat := 0
  faultCount : Nat := 0
  strayCount : Nat := 0
  firstFault : Option Word16 := none
  lastReport : Option (ReportClass × Instant) := none
  retiredBy : Option Link := none
  stamp : Nat := 0
deriving DecidableEq, Repr

/-! ## The valve records -/

/-- The redundancy margin of a valve (R86). -/
inductive Margin | ample | atLimit | exhausted
deriving DecidableEq, Repr

/-- The phase of a valve (Valve phases, R84). -/
inductive Phase | blocking | conducting | commutating
deriving DecidableEq, Repr

/-- The level counts by state (R84, R85). -/
structure Tally where
  unproven : Nat := 0
  sound : Nat := 0
  suspect : Nat := 0
  dark : Nat := 0
  faulted : Nat := 0
  retired : Nat := 0
deriving DecidableEq, Repr

/-- The Valve Monitor's fields of a valve record (R84). The failed and the unproven count are the
sums of R85 over `tally`. -/
structure Monitor where
  tally : Tally := {}
  margin : Margin := .atLimit
  phase : Phase := .blocking
  indicated : Nat := 0
  distinctPfi : Nat := 0
  blockBack : Option Instant := none
  lastFire : Option Instant := none
  scheduled : Nat := 0
  late : Nat := 0
  forced : Nat := 0
  refire : Nat := 0
  protective : Nat := 0
deriving DecidableEq, Repr

/-- The Firing Scheduler's fields of a valve record (R22 to R30, R35): the zero queue, Zj, α_eff,
Fj, the quorum-wait length kept for Fj (R28), the quorum-wait expiry, Dj, and the two counts. -/
structure Schedule where
  zeros : List Instant := []
  zero : Instant := 0
  alphaEff : Nat := 0
  fireAt : Option Instant := none
  waitLength : Nat := 0
  expiry : Option Instant := none
  deadline : Option Instant := none
  slips : Nat := 0
  pulledIn : Nat := 0
deriving DecidableEq, Repr

/-- One Valve Channel Controller (03_valve_channels_and_level_pulses.md, R51). -/
structure Channel where
  up : Bool := false
  run : Nat := 0
  lastMessage : Option Instant := none
  lastSend : Option Instant := none
  errors : Nat := 0
  noiseCycle : Nat := 0
  noiseTotal : Nat := 0
deriving DecidableEq, Repr

/-- One valve: its record (R84), field by field under the block that keeps it, its channel, and the
level records of its installed positions 1 … Nv in order. A position beyond the list is ABSENT
(R54, assumption 6). -/
structure ValveRecord where
  schedule : Schedule := {}
  monitor : Monitor := {}
  lastGamma : Option Nat := none
  commFailures : Nat := 0
  bypasses : Nat := 0
  channel : Channel := {}
  levels : List Level := []
deriving DecidableEq, Repr

/-! ## The Phase Tracker -/

/-- The crossing detector (R1): CONFIRMING holds the candidate t0, DISARMED holds tl. -/
inductive Detector
  | armed
  | confirming (t0 : Instant)
  | disarmed (tl : Option Instant)
deriving DecidableEq, Repr

/-- The sync states (R10 to R13). -/
inductive SyncState | seeking | locked | holdover | lost
deriving DecidableEq, Repr

/-- The Phase Tracker (01_synchronism_and_cycle_references.md, R16). -/
structure Tracker where
  detector : Detector := .disarmed none
  sync : SyncState := .seeking
  period : Nat := Config.resetPeriod
  tref : Option Instant := none
  deadline : Option Instant := none
  cycle : Word16 := 0
  goodRun : Nat := 0
  relockRun : Nat := 0
  holdover : Nat := 0
  disturbances : Nat := 0
deriving DecidableEq, Repr

/-! ## The Margin Guard -/

/-- The group-wide state of the Margin Guard (R109). -/
structure Guard where
  advance : Nat := 0
  mark : Bool := false
  failCycles : Nat := 0
  lowest : Option Nat := none
  reportedLow : Option Nat := none
deriving DecidableEq, Repr

/-! ## The Group Mode Controller -/

/-- The group modes (R123). -/
inductive Mode | blocked | deblocking | running | bypass
deriving DecidableEq, Repr

/-- The deblock origin, present in DEBLOCKING only (07_group_modes_blocking_and_bypass.md). -/
inductive Origin | fromBlocked | fromBypass
deriving DecidableEq, Repr

/-- The trip causes (R136). -/
inductive TripCause | redundancy | channel | syncLost | persistentCf | controlLoss
deriving DecidableEq, Repr

/-- The trip cause set (R136). -/
structure TripSet where
  redundancy : Bool := false
  channel : Bool := false
  syncLost : Bool := false
  persistentCf : Bool := false
  controlLoss : Bool := false
deriving DecidableEq, Repr

/-- The reasons of a refused deblock (R126). -/
inductive RefusalReason
  | notReady
  | sync
  | trip
  | channel
  | readiness (j : Valve)
deriving DecidableEq, Repr

/-- An upper valve of a bridge, by its bridge valve number 1, 3 or 5 (R132). -/
inductive Upper | one | three | five
deriving DecidableEq, Repr

/-- A phase leg of a bridge: {1,4}, {3,6} or {5,2} (R133). -/
inductive Leg | leg14 | leg36 | leg52
deriving DecidableEq, Repr

/-- The bypass legs of the two bridges (R133). -/
structure Legs where
  y : Leg
  d : Leg
deriving DecidableEq, Repr

/-- The Group Mode Controller (R141). -/
structure Group where
  mode : Mode := .blocked
  origin : Option Origin := none
  trips : TripSet := {}
  refusal : Option RefusalReason := none
  lastUpperY : Option Upper := none
  lastUpperD : Option Upper := none
  legs : Option Legs := none
  gatingExpiry : Option Instant := none
deriving DecidableEq, Repr

/-! ## The control links -/

/-- The attention sources (R152). -/
inductive Source
  | trip
  | sync
  | mode
  | link
  | valve (j : Valve)
deriving DecidableEq, Repr

/-- The requested mode of an order (R148). -/
inductive Requested | block | run | bypass
deriving DecidableEq, Repr

/-- The active order (R25, R148). -/
structure Order where
  alpha : Word16 := 0
  requested : Requested := .block
deriving DecidableEq, Repr

/-- The causes of a start (R167). -/
inductive StartCause | power | pin | service
deriving DecidableEq, Repr

/-- A valve summary of a status frame (Frame layouts). -/
structure Summary where
  failed : Nat
  unproven : Nat
  margin : Margin
deriving DecidableEq, Repr

/-- A status frame, field by field as Frame layouts lists them. The unit state is its code:
LOADING 0, CONFIG_FAULT 1, READY 2. `attention` is the word it carries, if any. -/
structure StatusFrame where
  address : BitVec 6
  unitCode : BitVec 2
  mode : Mode
  sync : SyncState
  cause : StartCause
  sel : Link
  roleA : Role
  roleB : Role
  silentA : Bool
  silentB : Bool
  refusal : Option RefusalReason
  trips : TripSet
  advance : Nat
  gammaLow : Option Nat
  cycle : Word16
  disturbances : Nat
  errors : Nat
  foreign : Nat
  counter : Nat
  summaries : List Summary
  attention : Option (Source × BitVec 12)
deriving DecidableEq, Repr

/-- The stored result of the Service Responder (R157). -/
inductive StoredResult | none | stored | failed
deriving DecidableEq, Repr

/-- The results of a service request (Service frames and replies). -/
inductive ServiceResult
  | ok
  | notActive
  | badAddress
  | wrongMode
  | wouldExhaust
  | busy
  | invalidImage
  | noConfig
deriving DecidableEq, Repr

/-- A service reply: the fields of its head, and its data bytes from byte 7 on. -/
structure ServiceReply where
  address : BitVec 6
  code : BitVec 4
  stored : StoredResult
  result : ServiceResult
  counter : Nat
  data : List Byte
deriving DecidableEq, Repr

/-- A reply on a link (R151). -/
inductive Reply
  | status (f : StatusFrame)
  | service (r : ServiceReply)
deriving DecidableEq, Repr

/-- A walk cursor: a level address with positions from 1 (R159). -/
structure Cursor where
  valve : Valve := 0
  position : Nat := 1
deriving DecidableEq, Repr

/-- One Link Interface (R154): the reply on the line and those waiting behind it (R151), and the
attention set as one word of event bits per source in priority order, 0 where none is pending
(R152). -/
structure LinkState where
  lastValid : Option Instant := none
  role : Role := .standby
  silent : Bool := true
  errors : Nat := 0
  foreign : Nat := 0
  onLine : Option Reply := none
  waiting : List Reply := []
  attention : Vector (BitVec 12) Config.sourceCount := Vector.replicate Config.sourceCount 0
  cursor : Cursor := {}
deriving DecidableEq, Repr

/-! ## The Service Responder and the Configuration Loader -/

/-- A STORE in flight: when it began and the words it writes (R166). -/
structure StoreInFlight where
  began : Instant
  words : Image
deriving DecidableEq, Repr

/-- Which resets hold a part: a power-on reset until the supply is stable, a pin reset for as long as the
pin stays low, or each of the two (R167). -/
inductive HeldBy | powerOn | pin | both
deriving DecidableEq, Repr

/-- A part held in reset: the start cause its release will set, and what holds it (R167). -/
structure Hold where
  cause : StartCause
  heldBy : HeldBy
deriving DecidableEq, Repr

/-- The state of the unit (R164, R167). While a reset is in effect and has not ended, the part is
held; LOADING keeps the instant at which its read began; READY keeps the working image, which is
present in READY alone. -/
inductive UnitState
  | held (hold : Hold)
  | loading (began : Instant)
  | configFault
  | ready (working : Image)
deriving DecidableEq, Repr

/-- What the part has put on its lines: a message on a valve channel, a reply sent whole on a
control link, a STORE's words taken by the configuration memory. -/
inductive Sent
  | channel (j : Valve) (message : List Byte)
  | reply (l : Link) (frame : List Byte)
  | memory (words : Image)
deriving DecidableEq, Repr

/-- The state of the part. `refHigh` is the level of the reference comparator input. The last four
fields are the model's own: what has gone out on the lines, newest first; the trip causes handed to
the Group Mode Controller within the command being taken (R136); the choices of order still to come
where the spec leaves an order open (assumption 5); and the commands waiting, first in first out. -/
structure State where
  timebase : Instant
  unit : UnitState
  startCause : StartCause
  staging : Image
  refHigh : Bool
  tracker : Tracker
  counter : Nat
  valves : Vector ValveRecord Config.valveCount
  guard : Guard
  group : Group
  linkA : LinkState
  linkB : LinkState
  sel : Link
  order : Order
  lastTaken : Option Instant
  limitPassed : Bool
  store : Option StoreInFlight
  stored : StoredResult
  sent : List Sent
  handed : List TripCause
  choices : List Nat
  pending : List Instr
deriving DecidableEq, Repr

/-- The part right after a power-on reset has ended (R164, R167): LOADING, its read begun at
timebase 0, and every block at the values its chapter gives after a reset (R16, R35, R51, R81,
R107, R121, R141, R154, R168). -/
def State.reset : State where
  timebase := 0
  unit := .loading 0
  startCause := .power
  staging := Vector.replicate Config.imageWords 0
  refHigh := false
  tracker := {}
  counter := 0
  valves := Vector.replicate Config.valveCount {}
  guard := {}
  group := {}
  linkA := {}
  linkB := {}
  sel := .a
  order := {}
  lastTaken := none
  limitPassed := false
  store := none
  stored := .none
  sent := []
  handed := []
  choices := []
  pending := []

end Sys2Proof.Machine
end

