-- ==== Sys2Proof/Machine/Time.lean ====
section
/-! DEFINITION. Instants, angles and saturating counts: the arithmetic of the Conventions
(00_scope.md) and of R18 and R19. -/

namespace Sys2Proof.Machine

open Sys2Proof

/-- The rounded quotient q(x, y) = floor((x + floor(y/2)) / y) (00_scope.md, Rounded quotient). -/
def roundedQuotient (x y : Nat) : Nat := (x + y / 2) / y

/-- The ticks of an angle of `a` cdeg at period `p` (R19). -/
def angleTicks (a p : Nat) : Nat := roundedQuotient (a * p) 36000

/-- The angle in cdeg of `d` ticks at period `p` (R111, before its limit). -/
def ticksAngle (d p : Nat) : Nat := roundedQuotient (d * 36000) p

/-- The instant `d` ticks after `t`, modulo 2^32 (R18). -/
def after (t : Instant) (d : Nat) : Instant := t + BitVec.ofNat 32 d

/-- The ticks from `t1` forward to `t2`, modulo 2^32. -/
def span (t1 t2 : Instant) : Nat := (t2 - t1).toNat

/-- `t2` is later than `t1` (00_scope.md, Time). -/
def later (t2 t1 : Instant) : Bool := decide (1 ≤ span t1 t2) && decide (span t1 t2 < 2147483648)

/-- At timebase `now` the instant `t` is reached: equal to it or earlier (00_scope.md, Time). -/
def reached (now t : Instant) : Bool := now == t || later now t

/-- A count that saturates at `limit` goes up by 1 (00_scope.md, Counts). -/
def bump (limit n : Nat) : Nat := min limit (n + 1)

/-- clamp(x, lo, hi) of R25. -/
def clamp (x lo hi : Nat) : Nat := if x < lo then lo else if hi < x then hi else x

end Sys2Proof.Machine
end

