-- ==== Sys2Proof/Machine/Bytes.lean ====
section
/-! DEFINITION. The bytes of frames and messages and their CRC (00_scope.md, Bytes and checks):
most significant byte first, polynomial x^16 + x^12 + x^5 + 1 from FFFF hex, most significant bit
first, no final inversion. -/

namespace Sys2Proof.Machine

open Sys2Proof

/-- `n` shifts of the CRC register. -/
def crcShift : Nat → Word16 → Word16
  | 0, c => c
  | n + 1, c => crcShift n (if c.msb then (c <<< 1) ^^^ 0x1021#16 else c <<< 1)

/-- One byte through the CRC. -/
def crcByte (c : Word16) (b : Byte) : Word16 := crcShift 8 (c ^^^ (b.zeroExtend 16 <<< 8))

/-- The CRC of a sequence of bytes. -/
def crc16 (bytes : List Byte) : Word16 := bytes.foldl crcByte 0xFFFF#16

/-- The bytes of a 16-bit field. -/
def bytes2 (w : BitVec 16) : List Byte := [w.extractLsb' 8 8, w.extractLsb' 0 8]

/-- The bytes of a 32-bit field. -/
def bytes4 (w : BitVec 32) : List Byte :=
  [w.extractLsb' 24 8, w.extractLsb' 16 8, w.extractLsb' 8 8, w.extractLsb' 0 8]

/-- A count as one byte. -/
def byteOf (n : Nat) : Byte := BitVec.ofNat 8 n

/-- A count as two bytes. -/
def countBytes2 (n : Nat) : List Byte := bytes2 (BitVec.ofNat 16 n)

/-- A count as four bytes. -/
def countBytes4 (n : Nat) : List Byte := bytes4 (BitVec.ofNat 32 n)

/-- One flag as one bit. -/
def flag (b : Bool) : BitVec 1 := BitVec.ofBool b

/-- A frame or message closed by the CRC of the bytes before it. -/
def withCrc (bytes : List Byte) : List Byte := bytes ++ bytes2 (crc16 bytes)

/-- What precedes the last two bytes of a frame, and those two as a CRC. -/
def splitCrc (bytes : List Byte) : Option (List Byte × Word16) :=
  match bytes.reverse with
  | lo :: hi :: rest => some (rest.reverse, hi ++ lo)
  | _ => none

end Sys2Proof.Machine
end

