-- ==== Sys2Proof/Machine/Image.lean ====
section
/-! DEFINITION. The configuration image: its parameters by word and its validity (R163). A block
reads a parameter from the working image at each use. -/

namespace Sys2Proof.Machine

open Sys2Proof

/-- Word `n` of an image as a number. -/
def imageWord (im : Image) (n : Nat) : Nat := (im.toList.getD n 0).toNat

/-! ## The parameters (The image) -/

def Par.gaddr (im : Image) : Nat := imageWord im 1
def Par.nomf (im : Image) : Nat := imageWord im 2
def Par.phi0 (im : Image) : Nat := imageWord im 3
/-- Nv of a valve. -/
def Par.nv (j : Valve) (im : Image) : Nat := imageWord im (4 + 3 * j.val)
/-- Rv of a valve. -/
def Par.rv (j : Valve) (im : Image) : Nat := imageWord im (5 + 3 * j.val)
/-- PTv of a valve. -/
def Par.ptv (j : Valve) (im : Image) : Nat := imageWord im (6 + 3 * j.val)
/-- The readiness count Qv = Nv − Rv (R84). -/
def Par.qv (j : Valve) (im : Image) : Nat := Par.nv j im - Par.rv j im
def Par.amin (im : Image) : Nat := imageWord im 40
def Par.amax (im : Image) : Nat := imageWord im 41
def Par.gmin (im : Image) : Nat := imageWord im 42
def Par.advmax (im : Image) : Nat := imageWord im 43
def Par.advdec (im : Image) : Nat := imageWord im 44
def Par.guard (im : Image) : Nat := imageWord im 45
def Par.msus (im : Image) : Nat := imageWord im 46
def Par.mdark (im : Image) : Nat := imageWord im 47
def Par.qwait (im : Image) : Nat := imageWord im 48
def Par.refsp (im : Image) : Nat := imageWord im 49
def Par.byptrip (im : Image) : Nat := imageWord im 50
def Par.cflim (im : Image) : Nat := imageWord im 51
def Par.tconf (im : Image) : Nat := imageWord im 52
def Par.holdmax (im : Image) : Nat := imageWord im 53
def Par.tsil (im : Image) : Nat := imageWord im 54
def Par.tnoact (im : Image) : Nat := imageWord im 55
def Par.wil (im : Image) : Nat := imageWord im 56
def Par.wih (im : Image) : Nat := imageWord im 57
def Par.gl (im : Image) : Nat := imageWord im 58
def Par.gh (im : Image) : Nat := imageWord im 59
def Par.wll (im : Image) : Nat := imageWord im 60
def Par.wlh (im : Image) : Nat := imageWord im 61
def Par.noiselim (im : Image) : Nat := imageWord im 62

/-- The nominal period: 200,000 ticks at 50 Hz, 166,667 at 60 Hz (Period, accept window and period
filter). -/
def Par.pnom (im : Image) : Nat := if Par.nomf im = 60 then 166667 else 200000

/-- θj = (PHI0 + (j − 1) × 3,000) mod 36,000, with `j` counted from 0 (R20). -/
def Par.theta (j : Valve) (im : Image) : Nat := (Par.phi0 im + j.val * 3000) % 36000

/-! ## Validity (R163) -/

/-- `n` lies in lo … hi. -/
def inRange (lo hi n : Nat) : Bool := decide (lo ≤ n) && decide (n ≤ hi)

/-- The sum of all 64 words modulo 65,536. -/
def imageSum (im : Image) : Nat := (im.toList.foldl (fun n w => n + w.toNat) 0) % 65536

/-- The ranges of one valve's three words. -/
def valveInRange (im : Image) (j : Valve) : Bool :=
  inRange 4 80 (Par.nv j im) && inRange 0 16 (Par.rv j im)
    && decide (Par.rv j im ≤ Par.nv j im - 4) && inRange 1 (Par.nv j im) (Par.ptv j im)

/-- The ranges of the group's words. -/
def groupInRange (im : Image) : Bool :=
  inRange 1 62 (Par.gaddr im) && (Par.nomf im == 50 || Par.nomf im == 60)
    && inRange 0 35999 (Par.phi0 im) && inRange 200 3000 (Par.amin im)
    && inRange 15000 17000 (Par.amax im) && inRange 500 3000 (Par.gmin im)
    && inRange 0 3000 (Par.advmax im) && inRange 1 200 (Par.advdec im)
    && inRange 0 1 (Par.guard im) && inRange 1 7 (Par.msus im)
    && inRange (Par.msus im + 1) 15 (Par.mdark im) && inRange 0 1000 (Par.qwait im)
    && inRange 200 5000 (Par.refsp im) && inRange 0 1 (Par.byptrip im)
    && inRange 1 15 (Par.cflim im) && inRange 100 5000 (Par.tconf im)
    && inRange 1 15 (Par.holdmax im) && inRange 5 100 (Par.tsil im)
    && inRange 10 1000 (Par.tnoact im)

/-- The ranges and the order of the width and gap windows, and NOISELIM. -/
def windowsInRange (im : Image) : Bool :=
  inRange 1 255 (Par.wil im) && inRange 1 255 (Par.wih im) && inRange 1 255 (Par.gl im)
    && inRange 1 255 (Par.gh im) && inRange 1 255 (Par.wll im) && inRange 1 255 (Par.wlh im)
    && decide (Par.wil im ≤ Par.wih im) && decide (Par.wih im < Par.wll im)
    && decide (Par.wll im ≤ Par.wlh im) && decide (Par.gl im ≤ Par.gh im)
    && inRange 1 255 (Par.noiselim im)

/-- An image is valid when it passes the three checks of R163. -/
def imageValid (im : Image) : Bool :=
  imageWord im 0 == 1 && imageSum im == 0
    && (groupInRange im && (List.finRange Config.valveCount).all (valveInRange im)
      && windowsInRange im)

/-- CONFIG WRITE of the first `n` of eight data words from word `a` on (R161). -/
def imageWrite (im : Image) (a n : Nat) (data : Vector Word16 8) : Image :=
  Vector.ofFn fun i => if a ≤ i.val ∧ i.val < a + n then data.toList.getD (i.val - a) 0 else im[i]

end Sys2Proof.Machine
end

