-- ==== Sys2Proof/Machine/Access.lean ====
section
/-! DEFINITION. Reading and replacing one part of the state: the parameters in force, one valve, one
link, the choices of order. Every other definition reads and writes through these. -/

namespace Sys2Proof.Machine

open Sys2Proof

/-- The working image while the unit is READY (R163, R164). -/
def State.working (s : State) : Option Image :=
  match s.unit with
  | .ready im => some im
  | _ => none

/-- The unit is READY. -/
def State.isReady (s : State) : Bool := s.working.isSome

/-- A parameter of the working image; 0 while none is in force (R107). -/
def State.par (s : State) (f : Image → Nat) : Nat :=
  match s.unit with
  | .ready im => f im
  | _ => 0

/-- The record of valve `j`. -/
def State.valve (s : State) (j : Valve) : ValveRecord := s.valves[j]

/-- The state with the record of valve `j` replaced. -/
def State.setValve (s : State) (j : Valve) (v : ValveRecord) : State :=
  { s with valves := s.valves.set j v }

/-- The state with the record of valve `j` changed by `f`. -/
def State.modValve (s : State) (j : Valve) (f : ValveRecord → ValveRecord) : State :=
  s.setValve j (f (s.valve j))

/-- The state with every valve's record changed by `f`. -/
def State.mapValves (s : State) (f : Valve → ValveRecord → ValveRecord) : State :=
  { s with valves := Vector.ofFn fun j => f j s.valves[j] }

/-- The twelve valves in order. -/
def allValves : List Valve := List.finRange Config.valveCount

/-- The Link Interface of link `l`. -/
def State.link (s : State) (l : Link) : LinkState :=
  match l with
  | .a => s.linkA
  | .b => s.linkB

/-- The state with the Link Interface of link `l` changed by `f`. -/
def State.modLink (s : State) (l : Link) (f : LinkState → LinkState) : State :=
  match l with
  | .a => { s with linkA := f s.linkA }
  | .b => { s with linkB := f s.linkB }

/-- The valve whose successor is `j`: j − 4, wrapped (R90). -/
def predecessor (j : Valve) : Valve := j + 8

/-- The failed count of R85. -/
def Tally.failed (t : Tally) : Nat := t.dark + t.faulted + t.retired

/-- The failed count of a valve (R85). -/
def ValveRecord.failed (v : ValveRecord) : Nat := v.monitor.tally.failed

/-- The unproven count of a valve (R85). -/
def ValveRecord.unproven (v : ValveRecord) : Nat := v.monitor.tally.unproven

/-- The next choice of order, and the state without it; 0 when none is left (assumption 5). -/
def State.choose (s : State) : Nat × State :=
  match s.choices with
  | [] => (0, s)
  | k :: ks => (k, { s with choices := ks })

/-- A command at tick `t` has the effect `f` at that timebase value; while a reset is in effect
nothing is received or sent and no state changes (R167). -/
def State.atTick (s : State) (t : Instant) (f : State → State) : Host.Outcome State Fault Refusal :=
  match s.unit with
  | .held _ => .next s
  | _ => .next (f { s with timebase := t, handed := [] })

end Sys2Proof.Machine
end

