-- ==== Sys2Proof/Machine/Flags.lean ====
section
/-! DEFINITION. The event bits of the attention sets (R152), the taking of a word (R153), and the
bits of the trip cause set. -/

namespace Sys2Proof.Machine

open Sys2Proof

/-- A source's place in priority order, which is its code in the attention word (R152). -/
def Source.code : Source → Fin Config.sourceCount
  | .trip => 0
  | .sync => 1
  | .mode => 2
  | .link => 3
  | .valve j => ⟨4 + j.val, by have := j.isLt; simp [Config.valveCount, Config.sourceCount] at *; omega⟩

/-- The source at a place in priority order. -/
def sourceAt (n : Fin Config.sourceCount) : Source :=
  match n with
  | 0 => .trip
  | 1 => .sync
  | 2 => .mode
  | 3 => .link
  | ⟨n + 4, h⟩ => .valve ⟨n, by simp [Config.valveCount, Config.sourceCount] at *; omega⟩

/-- The word with event bit `n` set, the bits counted from 0 as R152 lists them. -/
def eventBit (n : Nat) : BitVec 12 := BitVec.twoPow 12 n

/-! ## The event bits of R152 -/

def syncLocked := eventBit 0
def syncHoldover := eventBit 1
def syncLost := eventBit 2
def syncSeeking := eventBit 3
def syncDisturbance := eventBit 4

def modeBlocked := eventBit 0
def modeDeblocking := eventBit 1
def modeRunning := eventBit 2
def modeBypass := eventBit 3
def modeRefused := eventBit 4
def modeConfigApplied := eventBit 5

def linkSwitched := eventBit 0
def linkDualActive := eventBit 1
def linkASilent := eventBit 2
def linkBSilent := eventBit 3
def linkFormat := eventBit 4

def valveState := eventBit 0
def valveMargin := eventBit 1
def valveProtective := eventBit 2
def valveCfail := eventBit 3
def valveForced := eventBit 4
def valveLate := eventBit 5
def valveSlip := eventBit 6
def valveChannel := eventBit 7
def valveNoise := eventBit 8

/-- The bit of a trip cause in the TRIP word. -/
def TripCause.bit : TripCause → BitVec 12
  | .redundancy => eventBit 0
  | .channel => eventBit 1
  | .syncLost => eventBit 2
  | .persistentCf => eventBit 3
  | .controlLoss => eventBit 4

/-- The silence event of a link. -/
def silentBit : Link → BitVec 12
  | .a => linkASilent
  | .b => linkBSilent

/-- The pending word of a source in an attention set, 0 when none is pending. -/
def LinkState.pendingWord (k : LinkState) (src : Source) : BitVec 12 := k.attention[src.code]

/-- Event bits join a source's word in one attention set (R152). -/
def LinkState.post (k : LinkState) (src : Source) (bits : BitVec 12) : LinkState :=
  { k with attention := k.attention.set src.code (k.pendingWord src ||| bits) }

/-- A block with news posts it to both attention sets (R152). -/
def State.post (s : State) (src : Source) (bits : BitVec 12) : State :=
  { s with linkA := s.linkA.post src bits, linkB := s.linkB.post src bits }

/-- The highest-priority pending word of an attention set (R153). -/
def LinkState.topWord (k : LinkState) : Option (Source × BitVec 12) :=
  match (List.finRange Config.sourceCount).find? fun n => k.attention[n] != 0 with
  | none => none
  | some n => some (sourceAt n, k.attention[n])

/-- That word removed from the set (R153). -/
def LinkState.dropTopWord (k : LinkState) : LinkState :=
  match k.topWord with
  | none => k
  | some (src, _) => { k with attention := k.attention.set src.code 0 }

/-! ## The trip cause set -/

/-- The set holds a cause. -/
def TripSet.has (t : TripSet) : TripCause → Bool
  | .redundancy => t.redundancy
  | .channel => t.channel
  | .syncLost => t.syncLost
  | .persistentCf => t.persistentCf
  | .controlLoss => t.controlLoss

/-- The set with a cause added. -/
def TripSet.add (t : TripSet) : TripCause → TripSet
  | .redundancy => { t with redundancy := true }
  | .channel => { t with channel := true }
  | .syncLost => { t with syncLost := true }
  | .persistentCf => { t with persistentCf := true }
  | .controlLoss => { t with controlLoss := true }

/-- The set holds no cause. -/
def TripSet.isEmpty (t : TripSet) : Bool :=
  !(t.redundancy || t.channel || t.syncLost || t.persistentCf || t.controlLoss)

end Sys2Proof.Machine
end

