-- ==== Sys2Proof/Machine/Levels.lean ====
section
/-! DEFINITION. Level records one by one: the classes, the stamps, the effect of a report, the review
of an interval closing, and the three maintenance changes (04_the_level_table.md). -/

namespace Sys2Proof.Machine

open Sys2Proof

/-- A counting state: UNPROVEN, SOUND or SUSPECT (R56). -/
def LevelState.counting : LevelState → Bool
  | .unproven | .sound | .suspect => true
  | _ => false

/-- A failed state: DARK, FAULTED or RETIRED (R56). -/
def LevelState.failed : LevelState → Bool
  | .dark | .faulted | .retired => true
  | _ => false

/-- The record an installed position takes at an initialisation (R81). -/
def Level.initial : Level := { state := .unproven }

/-- The record of position `p` of a valve; a position beyond the installed ones is ABSENT (R54). -/
def ValveRecord.level (v : ValveRecord) (p : Nat) : Level :=
  if p = 0 then {} else v.levels.getD (p - 1) {}

/-- The valve's record with the level record of position `p` replaced. -/
def ValveRecord.setLevel (v : ValveRecord) (p : Nat) (l : Level) : ValveRecord :=
  { v with levels := v.levels.set (p - 1) l }

/-! ## Stamps -/

/-- The table change counter after a stamped change (R57, R59). -/
def nextCounter (c : Nat) : Nat := if c < Config.stampLimit then c + 1 else c

/-- The stamp a stamped change writes (R57, R59). -/
def nextStamp (c : Nat) : Nat := if c < Config.stampLimit then c + 1 else 0

/-! ## Reports (R61 to R68) -/

/-- The phase mark of an IND or PFI (R61, R96). -/
inductive Mark | interval | conduction
deriving DecidableEq, Repr

/-- The standing of a report (R61). -/
inductive Standing | counting | protectiveOnly | fault | stray
deriving DecidableEq, Repr

/-- What the Level Table answers to a report: the record after it, its standing, and which flags it
newly set or cleared (R61). -/
structure Answer where
  level : Level
  standing : Standing
  indSet : Bool := false
  pfiSet : Bool := false
  indCleared : Bool := false
deriving DecidableEq, Repr

/-- A report raises the stray count and changes nothing else but the last report (R67). -/
def Level.stray (l : Level) : Answer :=
  { level := { l with strayCount := bump Config.count8 l.strayCount }, standing := .stray }

/-- An IND, its last report already set (R62, R67). -/
def Level.takeInd (l : Level) (mark : Mark) : Answer :=
  if l.state.counting then
    { level := { l with indicated := l.indicated || mark == .interval }, standing := .counting
      indSet := mark == .interval && !l.indicated }
  else l.stray

/-- A PFI, its last report already set (R63, R64, R67). -/
def Level.takePfi (l : Level) (mark : Mark) : Answer :=
  if l.state.counting then
    { level := { l with pfiCount := bump Config.count8 l.pfiCount, pfi := true
                        indicated := l.indicated || mark == .interval }
      standing := .counting, indSet := mark == .interval && !l.indicated, pfiSet := !l.pfi }
  else if l.state = .faulted then
    { level := { l with pfiCount := bump Config.count8 l.pfiCount, pfi := true }
      standing := .protectiveOnly, pfiSet := !l.pfi }
  else l.stray

/-- An LFT, its last report already set, at cycle number `cycle` (R55, R65, R66, R68). -/
def Level.takeLft (l : Level) (cycle : Word16) : Answer :=
  if l.state = .retired then l.stray
  else
    { level := { l with state := .faulted, faultCount := bump Config.count8 l.faultCount
                        firstFault := some (l.firstFault.getD cycle)
                        indicated := l.indicated && !l.state.counting }
      standing := .fault, indCleared := l.indicated && l.state.counting }

/-- What a report does to an installed record (R61 to R67): its instant `at'` is kept as the last
report, whatever the state. -/
def Level.take (l : Level) (cls : ReportClass) (mark : Mark) (at' : Instant) (cycle : Word16) :
    Answer :=
  let l := { l with lastReport := some (cls, at') }
  match cls with
  | .ind => l.takeInd mark
  | .pfi => l.takePfi mark
  | .lft => l.takeLft cycle

/-! ## Interval accounting (R69 to R72) -/

/-- The review of one record at a closing, less its stamp and the clearing of its flags. -/
def Level.review (l : Level) (msus mdark : Nat) (valid : Bool) : Level :=
  if l.state.counting then
    if l.indicated then { l with miss := 0, state := .sound }
    else if valid then
      let miss := bump mdark l.miss
      { l with miss := miss
               state := if mdark ≤ miss then .dark
                        else if msus ≤ miss ∧ l.state = .sound then .suspect else l.state }
    else l
  else l

/-- Both flags of a record cleared (R72). -/
def Level.clearFlags (l : Level) : Level := { l with indicated := false, pfi := false }

/-- The outcome of one interval accounting: the counter, the records, and the changes of state in
increasing position (R58). -/
structure Reviewed where
  counter : Nat
  levels : List Level
  changes : List (LevelState × LevelState)
deriving DecidableEq, Repr

/-- The review of a valve's records in increasing position, each change of state stamped (R58,
R69). -/
def reviewAll (msus mdark : Nat) (valid : Bool) : Nat → List Level → Reviewed
  | c, [] => ⟨c, [], []⟩
  | c, l :: ls =>
    let l' := l.review msus mdark valid
    if l'.state = l.state then
      let r := reviewAll msus mdark valid c ls
      { r with levels := l'.clearFlags :: r.levels }
    else
      let r := reviewAll msus mdark valid (nextCounter c) ls
      { r with levels := { l'.clearFlags with stamp := nextStamp c } :: r.levels
               changes := (l.state, l'.state) :: r.changes }

/-! ## Maintenance (R76, R78, R79), less the stamp -/

/-- An accepted RETIRE over link `k` (R76, R68). -/
def Level.retire (l : Level) (k : Link) : Level :=
  { l with state := .retired, retiredBy := some k, indicated := l.indicated && !l.state.counting }

/-- An accepted RESTORE (R78). -/
def Level.restore (l : Level) : Level :=
  { l with state := .unproven, miss := 0, pfiCount := 0, faultCount := 0, strayCount := 0
           firstFault := none, lastReport := none, retiredBy := none }

/-- An accepted CLEAR COUNTS (R79). -/
def Level.clearCounts (l : Level) : Level :=
  { l with pfiCount := 0, faultCount := 0, strayCount := 0, firstFault := none }

/-! ## The fire mask (R39) -/

/-- The fire mask of a valve: bit 80 − p is set when position p is installed and not RETIRED, so
that the mask is sent with position 1 first (R39, Message layouts). -/
def maskFrom : Nat → List Level → BitVec Config.positionCount
  | _, [] => 0
  | 0, _ => 0
  | n + 1, l :: ls =>
    (if l.state = .retired ∨ l.state = .absent then 0 else BitVec.twoPow Config.positionCount n)
      ||| maskFrom n ls

/-- The fire mask of a valve (R39). -/
def fireMask (levels : List Level) : BitVec Config.positionCount :=
  maskFrom Config.positionCount levels

end Sys2Proof.Machine
end

