-- ==== Sys2Proof/WellFormed.lean ====
section
/-! DEFINITION. When a command is well formed. The types of the operands carry every range the
spec gives (valves 1 to 12, field widths, eight data words, 64 image words); what they leave over is
the row to which a raw message or frame belongs. -/

namespace Sys2Proof

/-- The kind byte of a PULSE REPORT (Message layouts). -/
def pulseReportKind : Byte := 0x81#8

/-- The kind byte of an OIU IDLE (Message layouts). -/
def oiuIdleKind : Byte := 0x82#8

/-- A message of MESSAGE_OF_UNKNOWN_KIND does not open with an inbound kind (R41). R41 says nothing of
a message of zero bytes. DESIGN CHOICE (assumption 26): it is admitted here, as one that has no inbound
kind, although a link frame of zero bytes is none (`frameDelivered`). -/
def unknownKind (msg : List Byte) : Bool :=
  match msg with
  | [] => true
  | k :: _ => k != pulseReportKind && k != oiuIdleKind

/-- The line layer delimits a frame as a sequence of bytes (R142); no bytes are no frame
(DESIGN CHOICE, assumption 26). Whether a
check of R142 discards the frame depends on the GADDR in force (R143), so the bytes alone do not
show it, and nothing more is asked of them. -/
def frameDelivered (bytes : List Byte) : Bool := !bytes.isEmpty

/-- Well-formedness of a command. -/
def Instr.wellFormed : Instr → Bool
  | .messageOfUnknownKind _ _ msg => unknownKind msg
  | .discardedFrameArrives _ _ bytes => frameDelivered bytes
  | _ => true

end Sys2Proof
end

