-- ==== Sys2Proof/Machine/Operands.lean ====
section
/-! DEFINITION. Frames and messages as their partners see them: what arrives and how it is checked
(R41, R142, R143), and what goes out and how it is laid out (Message layouts, Frame layouts, Service
frames and replies). -/

namespace Sys2Proof.Machine

open Sys2Proof

/-! ## Valve channel messages -/

/-- The fields of a PULSE REPORT (R46). -/
structure PulseReport where
  position : Nat
  count : Nat
  width1 : Nat
  gap : Nat
  width2 : Nat
  stamp : Instant
deriving DecidableEq, Repr

/-- A valid message of an OIU (R41). -/
inductive Inbound
  | report (r : PulseReport)
  | idle
deriving DecidableEq, Repr

/-- The body of a PULSE REPORT after its kind byte: its length and its CRC checked (R41). -/
def readReport (body : List Byte) : Option PulseReport :=
  match body with
  | [p, n, w1, g, w2, s3, s2, s1, s0, hi, lo] =>
    if crc16 [pulseReportKind, p, n, w1, g, w2, s3, s2, s1, s0] = hi ++ lo then
      some { position := p.toNat, count := n.toNat, width1 := w1.toNat, gap := g.toNat
             width2 := w2.toNat, stamp := s3 ++ s2 ++ s1 ++ s0 }
    else none
  | _ => none

/-- The body of an OIU IDLE after its kind byte has the right length and CRC (R41). -/
def readOiuIdle (body : List Byte) : Bool :=
  match body with
  | [hi, lo] => crc16 [oiuIdleKind] == hi ++ lo
  | _ => false

/-- The checks of R41 on a whole message: its kind, its length, its CRC. R41 says nothing of a message
of zero bytes. DESIGN CHOICE (assumption 26): it fails the kind check, so it is discarded and counted
as an error. -/
def readMessage (msg : List Byte) : Option Inbound :=
  match msg with
  | [] => none
  | k :: body =>
    if k = pulseReportKind then (readReport body).map .report
    else if k = oiuIdleKind then if readOiuIdle body then some .idle else none
    else none

/-- A FIRE message: kind 01 hex, the timebase and the fire mask (R38, Message layouts). -/
def fireMessage (now : Instant) (mask : BitVec Config.positionCount) : List Byte :=
  withCrc (0x01#8 :: (bytes4 now ++ (List.range 10).map fun i => mask.extractLsb' (72 - 8 * i) 8))

/-- An IDLE message of the VC12: kind 02 hex and the timebase (R40, Message layouts). -/
def idleMessage (now : Instant) : List Byte := withCrc (0x02#8 :: bytes4 now)

/-- The classes the Pulse Classifier gives (R47). -/
inductive PulseClass | ind | pfi | lft | noise
deriving DecidableEq, Repr

/-- The pattern match of R48 on the windows of `im`. -/
def pulsePattern (im : Image) (r : PulseReport) : PulseClass :=
  if r.count = 1 then
    if inRange (Par.wil im) (Par.wih im) r.width1 then .ind
    else if inRange (Par.wll im) (Par.wlh im) r.width1 then .lft
    else .noise
  else if r.count = 2 then
    if inRange (Par.wil im) (Par.wih im) r.width1 && inRange (Par.wil im) (Par.wih im) r.width2
        && inRange (Par.gl im) (Par.gh im) r.gap then .pfi
    else .noise
  else .noise

/-- The Pulse Classifier at arrival instant `now` (R46, R47). -/
def classify (im : Image) (j : Valve) (now : Instant) (r : PulseReport) : PulseClass :=
  if inRange 1 (Par.nv j im) r.position && decide (span r.stamp now ≤ Config.stampSpan) then
    pulsePattern im r
  else .noise

/-! ## Frames that arrive on a control link -/

/-- The kind of frames of orders and of requests (Frame layouts). -/
def orderKind : BitVec 2 := 0
def serviceKind : BitVec 2 := 1
def statusKind : BitVec 2 := 2
def serviceReplyKind : BitVec 2 := 3

/-- The requests of a service frame (Service frames and replies). -/
inductive Request
  | lookUpLevel (j p : Byte)
  | lookUpValve (j : Byte)
  | seek (j p : Byte)
  | walk (since : BitVec 32)
  | retire (j p : Byte)
  | restore (j p : Byte)
  | clearCounts (j p : Byte)
  | configRead (a n : Byte)
  | configWrite (a n : Byte) (data : Vector Word16 8)
  | configApply
  | configStore
  | reset
deriving DecidableEq, Repr

/-- The request codes. -/
def Request.code : Request → BitVec 4
  | .lookUpLevel .. => 1
  | .lookUpValve .. => 2
  | .seek .. => 3
  | .walk .. => 4
  | .retire .. => 5
  | .restore .. => 6
  | .clearCounts .. => 7
  | .configRead .. => 8
  | .configWrite .. => 9
  | .configApply => 10
  | .configStore => 11
  | .reset => 12

/-- The argument bytes of a request, from byte 2. -/
def Request.args : Request → List Byte
  | .lookUpLevel j p | .seek j p | .retire j p | .restore j p | .clearCounts j p => [j, p]
  | .lookUpValve j => [j]
  | .walk since => bytes4 since
  | .configRead a n => [a, n]
  | .configWrite a n data => a :: n :: data.toList.flatMap bytes2
  | .configApply | .configStore | .reset => []

/-- The role bit of byte 1. -/
def roleBit : Role → BitVec 1
  | .standby => 0
  | .active => 1

/-- The role a bit claims. -/
def roleOf (b : Bool) : Role := if b then .active else .standby

/-- The 6 bytes of an ORDER frame (Frame layouts). -/
def orderBytes (f : OrderFrame) : List Byte :=
  (f.address ++ orderKind) :: (roleBit f.role ++ flag f.clearTrip ++ f.spare ++ f.mode)
    :: (bytes2 f.alpha ++ bytes2 f.crc)

/-- The bytes of a SERVICE frame (Service frames and replies). -/
def serviceBytes (h : ServiceHead) (r : Request) : List Byte :=
  (h.address ++ serviceKind) :: (roleBit h.role ++ h.spare ++ r.code) :: (r.args ++ bytes2 h.crc)

/-- The frame length fixed for a request code; none for an unknown code. -/
def serviceLength (code : BitVec 4) : Option Nat :=
  match code.toNat with
  | 1 | 3 | 5 | 6 | 7 | 8 => some 6
  | 2 => some 5
  | 4 => some 8
  | 9 => some 22
  | 10 | 11 | 12 => some 4
  | _ => none

/-- What the checks of R142 make of a frame. -/
inductive Verdict | valid | foreign | error
deriving DecidableEq, Repr

/-- Check 2 of R142: the address check of R143, made only while a GADDR is in force. -/
def addressPasses (gaddr : Option Nat) (b0 : Byte) : Bool :=
  match gaddr with
  | none => true
  | some g => (b0.extractLsb' 2 6).toNat == g

/-- Checks 3 to 5 of R142: the kind, the length, and an ORDER frame's requested mode. -/
def shapePasses (b0 b1 : Byte) (length : Nat) : Bool :=
  if b0.extractLsb' 0 2 = orderKind then length == 6 && b1.extractLsb' 0 2 != (3 : BitVec 2)
  else if b0.extractLsb' 0 2 = serviceKind then
    serviceLength (b1.extractLsb' 0 4) == some length
  else false

/-- The checks of R142 in their order. `gaddr` is the GADDR in force (R143). -/
def checkFrame (gaddr : Option Nat) (bytes : List Byte) : Verdict :=
  match splitCrc bytes with
  | some (b0 :: rest, crc) =>
    if crc16 (b0 :: rest) = crc then
      if addressPasses gaddr b0 then
        if shapePasses b0 (rest.headD 0) bytes.length then .valid else .error
      else .foreign
    else .error
  | _ => .error

/-- The ORDER frame that 6 bytes spell. -/
def readOrder (bytes : List Byte) : Option OrderFrame :=
  match bytes with
  | [b0, b1, a1, a0, c1, c0] =>
    if b0.extractLsb' 0 2 = orderKind then
      some { address := b0.extractLsb' 2 6, role := roleOf b1.msb, clearTrip := b1.getLsbD 6
             spare := b1.extractLsb' 2 4, mode := b1.extractLsb' 0 2, alpha := a1 ++ a0
             crc := c1 ++ c0 }
    else none
  | _ => none

/-- Sixteen bytes as eight words. -/
def wordsOf : List Byte → List Word16
  | hi :: lo :: rest => (hi ++ lo) :: wordsOf rest
  | _ => []

/-- The request that a code and argument bytes spell. -/
def readRequest (code : BitVec 4) (args : List Byte) : Option Request :=
  match code.toNat, args with
  | 1, [j, p] => some (.lookUpLevel j p)
  | 2, [j] => some (.lookUpValve j)
  | 3, [j, p] => some (.seek j p)
  | 4, [s3, s2, s1, s0] => some (.walk (s3 ++ s2 ++ s1 ++ s0))
  | 5, [j, p] => some (.retire j p)
  | 6, [j, p] => some (.restore j p)
  | 7, [j, p] => some (.clearCounts j p)
  | 8, [a, n] => some (.configRead a n)
  | 9, a :: n :: data =>
    some (.configWrite a n (Vector.ofFn fun i => (wordsOf data).getD i.val 0))
  | 10, [] => some .configApply
  | 11, [] => some .configStore
  | 12, [] => some .reset
  | _, _ => none

/-- The SERVICE frame that bytes spell: its head and its request. -/
def readService (bytes : List Byte) : Option (ServiceHead × Request) :=
  match splitCrc bytes with
  | some (b0 :: b1 :: args, crc) =>
    if b0.extractLsb' 0 2 = serviceKind then
      (readRequest (b1.extractLsb' 0 4) args).map fun r =>
        ({ address := b0.extractLsb' 2 6, role := roleOf b1.msb, spare := b1.extractLsb' 4 3
           crc := crc }, r)
    else none
  | _ => none

/-- The requested mode of an ORDER frame: BLOCK 0, RUN 1, BYPASS 2 (Frame layouts). The value 3
fails check 5 of R142. -/
def requestedOf (m : BitVec 2) : Requested :=
  match m.toNat with
  | 1 => .run
  | 2 => .bypass
  | _ => .block

/-! ## The codes of the fields that go out -/

def Mode.code : Mode → BitVec 2
  | .blocked => 0
  | .deblocking => 1
  | .running => 2
  | .bypass => 3

def SyncState.code : SyncState → BitVec 2
  | .seeking => 0
  | .locked => 1
  | .holdover => 2
  | .lost => 3

def StartCause.code : StartCause → BitVec 2
  | .power => 0
  | .pin => 1
  | .service => 2

/-- The unit state codes: LOADING 0, CONFIG_FAULT 1, READY 2. Nothing is sent while held. -/
def UnitState.code : UnitState → BitVec 2
  | .held _ | .loading _ => 0
  | .configFault => 1
  | .ready _ => 2

def linkBit : Link → BitVec 1
  | .a => 0
  | .b => 1

def refusalCode : Option RefusalReason → BitVec 3
  | none => 0
  | some .notReady => 1
  | some .sync => 2
  | some .trip => 3
  | some .channel => 4
  | some (.readiness _) => 5

/-- The valve index of a READINESS refusal, 0 otherwise. -/
def refusalValve : Option RefusalReason → Byte
  | some (.readiness j) => byteOf (j.val + 1)
  | _ => 0

def Margin.code : Margin → BitVec 2
  | .ample => 0
  | .atLimit => 1
  | .exhausted => 2

def Phase.code : Phase → Byte
  | .blocking => 0
  | .conducting => 1
  | .commutating => 2

def LevelState.code : LevelState → Byte
  | .absent => 0
  | .unproven => 1
  | .sound => 2
  | .suspect => 3
  | .dark => 4
  | .faulted => 5
  | .retired => 6

def ReportClass.code : ReportClass → BitVec 2
  | .ind => 1
  | .pfi => 2
  | .lft => 3

def StoredResult.code : StoredResult → BitVec 2
  | .none => 0
  | .stored => 1
  | .failed => 2

def ServiceResult.code : ServiceResult → BitVec 4
  | .ok => 0
  | .notActive => 1
  | .badAddress => 2
  | .wrongMode => 3
  | .wouldExhaust => 4
  | .busy => 5
  | .invalidImage => 6
  | .noConfig => 7

def TripSet.bits (t : TripSet) : BitVec 5 :=
  flag t.redundancy ++ flag t.channel ++ flag t.syncLost ++ flag t.persistentCf
    ++ flag t.controlLoss

/-- A γ on the line, FFFF hex for none (R118). -/
def gammaWord : Option Nat → Word16
  | none => 0xFFFF#16
  | some g => BitVec.ofNat 16 g

/-! ## Status frames and service replies -/

/-- The attention word: the source's code and its event bits, 0 when none (R153). -/
def attentionWord : Option (Source × BitVec 12) → Word16
  | none => 0
  | some (src, bits) => BitVec.ofNat 4 src.code.val ++ bits

/-- The two bytes of a valve summary. -/
def Summary.bytes (v : Summary) : List Byte :=
  bytes2 (BitVec.ofNat 7 v.failed ++ BitVec.ofNat 7 v.unproven ++ v.margin.code)

/-- The 49 bytes of a status frame (Frame layouts). -/
def StatusFrame.bytes (f : StatusFrame) : List Byte :=
  withCrc <|
    [f.address ++ statusKind, f.unitCode ++ f.mode.code ++ f.sync.code ++ f.cause.code,
     linkBit f.sel ++ roleBit f.roleA ++ roleBit f.roleB ++ flag f.silentA ++ flag f.silentB
       ++ refusalCode f.refusal,
     f.trips.bits ++ (0 : BitVec 3), refusalValve f.refusal]
    ++ countBytes2 f.advance ++ bytes2 (gammaWord f.gammaLow) ++ bytes2 f.cycle
    ++ countBytes2 f.disturbances ++ countBytes2 f.errors ++ countBytes2 f.foreign
    ++ countBytes4 f.counter ++ f.summaries.flatMap Summary.bytes
    ++ bytes2 (attentionWord f.attention)

/-- The bytes of a service reply: its 7-byte head, its data, its CRC. Bits that the head's layout does
not name are sent as 0 (assumption 10). -/
def ServiceReply.bytes (r : ServiceReply) : List Byte :=
  withCrc <|
    [r.address ++ serviceReplyKind, (0 : BitVec 4) ++ r.code,
     r.stored.code ++ (0 : BitVec 2) ++ r.result.code]
    ++ countBytes4 r.counter ++ r.data

/-- The bytes of a reply. -/
def Reply.bytes : Reply → List Byte
  | .status f => f.bytes
  | .service r => r.bytes

/-- The flag byte of a level record. -/
def Level.flagByte (l : Level) : Byte :=
  flag l.indicated ++ flag l.pfi ++ flag l.firstFault.isSome ++ flag l.lastReport.isSome
    ++ flag l.retiredBy.isSome ++ (l.retiredBy.map linkBit).getD 0
    ++ (l.lastReport.map fun r => r.1.code).getD 0

/-- A level record as 18 bytes; `j` and `p` from 1. -/
def Level.bytes (l : Level) (j p : Nat) : List Byte :=
  [byteOf j, byteOf p, l.state.code, byteOf l.miss, l.flagByte, byteOf l.pfiCount,
   byteOf l.faultCount, byteOf l.strayCount]
    ++ bytes2 (l.firstFault.getD 0) ++ bytes4 ((l.lastReport.map Prod.snd).getD 0)
    ++ countBytes4 l.stamp

/-- The presence word of a valve record, from bit 15 down: Fj, the quorum-wait expiry, Dj, Bj, the
last fire instant, the last γ. The bits from 9 down, on which the spec is silent, are sent as 0
(assumption 24). -/
def ValveRecord.presence (v : ValveRecord) : Word16 :=
  flag v.schedule.fireAt.isSome ++ flag v.schedule.expiry.isSome ++ flag v.schedule.deadline.isSome
    ++ flag v.monitor.blockBack.isSome ++ flag v.monitor.lastFire.isSome ++ flag v.lastGamma.isSome
    ++ (0 : BitVec 10)

/-- An optional instant on the line: 0 when absent. -/
def instantBytes (t : Option Instant) : List Byte := bytes4 (t.getD 0)

/-- A valve record as 77 bytes, with the Nv, Rv and PTv in force. Absent parts are sent as 0, as in a
level record, and the margin state has the codes of a status frame; the spec states neither for the
valve record (assumption 24). -/
def ValveRecord.bytes (v : ValveRecord) (j : Valve) (nv rv ptv : Nat) : List Byte :=
  [byteOf (j.val + 1), byteOf nv, byteOf rv, byteOf ptv,
   byteOf v.monitor.tally.unproven, byteOf v.monitor.tally.sound, byteOf v.monitor.tally.suspect,
   byteOf v.monitor.tally.dark, byteOf v.monitor.tally.faulted, byteOf v.monitor.tally.retired,
   (v.monitor.margin.code).zeroExtend 8, v.monitor.phase.code, byteOf v.monitor.indicated,
   byteOf v.monitor.distinctPfi, Config.channelStateCode v.channel.up]
    ++ bytes2 v.presence
    ++ byteOf v.schedule.zeros.length
      :: (bytes4 (v.schedule.zeros.getD 0 0) ++ bytes4 (v.schedule.zeros.getD 1 0))
    ++ bytes4 v.schedule.zero ++ countBytes2 v.schedule.alphaEff
    ++ instantBytes v.schedule.fireAt ++ instantBytes v.schedule.expiry
    ++ instantBytes v.schedule.deadline ++ instantBytes v.monitor.blockBack
    ++ instantBytes v.monitor.lastFire ++ countBytes2 (v.lastGamma.getD 0)
    ++ countBytes2 v.monitor.scheduled ++ countBytes2 v.monitor.late ++ countBytes2 v.monitor.forced
    ++ countBytes2 v.schedule.pulledIn ++ countBytes2 v.monitor.refire
    ++ countBytes2 v.monitor.protective ++ countBytes2 v.bypasses
    ++ countBytes2 v.schedule.slips ++ countBytes2 v.commFailures ++ countBytes2 v.channel.errors
    ++ byteOf v.channel.noiseCycle :: countBytes2 v.channel.noiseTotal

end Sys2Proof.Machine
end

