-- ==== Sys2Proof/Machine/Arrivals.lean ====
section
/-! DEFINITION. A frame's arrival: its checks, its effect on its link and on the selection, and the
silence of a link (08_converter_control_links.md); and whether a BLOCK will be taken at the present tick. -/

namespace Sys2Proof.Machine

open Sys2Proof

/-- The GADDR in force, none outside READY (R143). -/
def State.gaddr (s : State) : Option Nat :=
  match s.unit with
  | .ready im => some (Par.gaddr im)
  | _ => none

/-- The silence span of a link in ticks (R145). -/
def State.silenceSpan (s : State) : Nat :=
  match s.unit with
  | .ready im => Par.tsil im * Config.tickUnit
  | _ => Config.unconfiguredSilence

/-- The silence limit of link `l` is reached: the link is not silent and has had a valid frame
(R145). -/
def State.silenceReached (s : State) (l : Link) : Bool :=
  match (s.link l).silent, (s.link l).lastValid with
  | false, some v => reached s.timebase (after v s.silenceSpan)
  | _, _ => false

/-- Link `l` becomes silent and posts its event when its limit is reached (R145). -/
def State.judgeSilence (l : Link) (s : State) : State :=
  if s.silenceReached l then
    (s.modLink l fun k => { k with silent := true }).post .link (silentBit l)
  else s

/-- A frame failing the address check is counted as foreign (R142). -/
def State.foreignFrame (l : Link) (s : State) : State :=
  s.modLink l fun k => { k with foreign := bump Config.count16 k.foreign }

/-- A frame failing another check is counted as an error, and FORMAT is posted (R142). -/
def State.errorFrame (l : Link) (s : State) : State :=
  (s.modLink l fun k => { k with errors := bump Config.count16 k.errors }).post .link linkFormat

/-- A valid frame acts on its Link Interface (R144). -/
def State.hearLink (l : Link) (r : Role) (s : State) : State :=
  s.modLink l fun k => { k with lastValid := some s.timebase, role := r, silent := false }

/-- The switch rule (R146). -/
def State.judgeSelection (l : Link) (r : Role) (s : State) : State :=
  if l = s.sel ∨ r = .standby then s
  else if (s.link s.sel).role = .standby ∨ (s.link s.sel).silent then
    { s with sel := l }.post .link linkSwitched
  else s.post .link linkDualActive

/-- A frame arrives on link `l` claiming `r`: checked (R142), then acting on its link (R144) and on
the selection (R146), then served by `serve`. -/
def State.receive (l : Link) (bytes : List Byte) (r : Role) (serve : State → State) (s : State) :
    State :=
  match checkFrame s.gaddr bytes with
  | .error => s.errorFrame l
  | .foreign => s.foreignFrame l
  | .valid => serve ((s.hearLink l r).judgeSelection l r)

/-! ## A BLOCK of the present tick -/

/-- The tick of a command; the three rows of a reset carry none. -/
def tickOf : Instr → Option Instant
  | .powerOnReset | .resetPin | .resetEnd _ => none
  | .loadingReadDone t _ | .loadingTimeout t | .crossingCandidate t | .candidateDropped t
  | .crossingConfirmed t | .detectorRearm t | .deadlineReached t | .takeUp t _ | .firingInstant t _
  | .forcedFiring t _ | .extinctionDeadline t _ | .pulseReport t _ _ | .oiuIdle t _ _
  | .channelDown t _ | .vc12Idle t _ | .bypassGating t | .linkSilence t _ | .controlLoss t
  | .orderFrame t _ _ | .replySent t _ | .lookUpLevel t _ _ _ _ | .lookUpValve t _ _ _
  | .seek t _ _ _ _ | .walk t _ _ _ | .retire t _ _ _ _ | .restore t _ _ _ _
  | .clearCounts t _ _ _ _ | .configRead t _ _ _ _ | .configWrite t _ _ _ _ _ | .configApply t _ _
  | .configStore t _ _ | .serviceReset t _ _ | .storeComplete t | .storeFailed t _ | .lowRunStart t
  | .lowRunBroken t | .messageOfUnknownKind t _ _ | .discardedFrameArrives t _ _ => some t

/-- The link and the bytes of a frame that a command brings, if it brings one. -/
def frameOf : Instr → Option (Link × List Byte)
  | .orderFrame _ l f => some (l, orderBytes f)
  | .discardedFrameArrives _ l bytes => some (l, bytes)
  | .lookUpLevel _ l h j p => some (l, serviceBytes h (.lookUpLevel j p))
  | .lookUpValve _ l h j => some (l, serviceBytes h (.lookUpValve j))
  | .seek _ l h j p => some (l, serviceBytes h (.seek j p))
  | .walk _ l h since => some (l, serviceBytes h (.walk since))
  | .retire _ l h j p => some (l, serviceBytes h (.retire j p))
  | .restore _ l h j p => some (l, serviceBytes h (.restore j p))
  | .clearCounts _ l h j p => some (l, serviceBytes h (.clearCounts j p))
  | .configRead _ l h a n => some (l, serviceBytes h (.configRead a n))
  | .configWrite _ l h a n data => some (l, serviceBytes h (.configWrite a n data))
  | .configApply _ l h => some (l, serviceBytes h .configApply)
  | .configStore _ l h => some (l, serviceBytes h .configStore)
  | .serviceReset _ l h => some (l, serviceBytes h .reset)
  | .powerOnReset | .resetPin | .resetEnd _ | .loadingReadDone _ _ | .loadingTimeout _
  | .crossingCandidate _ | .candidateDropped _ | .crossingConfirmed _ | .detectorRearm _
  | .deadlineReached _ | .takeUp _ _ | .firingInstant _ _ | .forcedFiring _ _
  | .extinctionDeadline _ _ | .pulseReport _ _ _ | .oiuIdle _ _ _ | .channelDown _ _
  | .vc12Idle _ _ | .bypassGating _ | .linkSilence _ _ | .controlLoss _ | .replySent _ _
  | .storeComplete _ | .storeFailed _ _ | .lowRunStart _ | .lowRunBroken _
  | .messageOfUnknownKind _ _ _ => none

/-- The role that the bytes of a frame claim (Frame layouts). -/
def roleClaimed (bytes : List Byte) : Role := roleOf (bytes.getD 1 0).msb

/-- What a command does to the silence, the roles and the selection of the links of a deblocked group:
a frame is heard and judged (R144, R146), a silence limit is judged (R145), every other command leaves
them. -/
def State.linksAfter (i : Instr) (s : State) : State :=
  match i with
  | .linkSilence _ l => s.judgeSilence l
  | _ =>
    match frameOf i with
    | some (l, bytes) => s.receive l bytes (roleClaimed bytes) id
    | none => s

/-- The command brings an ORDER frame with requested mode BLOCK that is taken: it passes the checks,
claims ACTIVE, and is on SEL after the switch rule (R142, R143, R146, R148). -/
def State.takesBlock (i : Instr) (s : State) : Bool :=
  match frameOf i with
  | some (l, bytes) =>
    match readOrder bytes, checkFrame s.gaddr bytes with
    | some f, .valid =>
      f.role == .active && requestedOf f.mode == .block && (s.linksAfter i).sel == l
    | _, _ => false
  | none => false

/-- One of the commands at the front of `queue` that carry the present tick brings a BLOCK that is
taken. -/
def blockFollowsIn (queue : List Instr) (s : State) : Bool :=
  match queue with
  | [] => false
  | i :: rest =>
    tickOf i == some s.timebase && (s.takesBlock i || blockFollowsIn rest (s.linksAfter i))

/-- A BLOCK is taken at the present tick after the command being run, and so takes a deblocked group out
of the deblocked modes (R15, R124, assumption 25). -/
def State.blockFollows (s : State) : Bool := blockFollowsIn s.pending s

end Sys2Proof.Machine
end

