-- ==== Sys2Proof/Machine/Ops.lean ====
section
/-! DEFINITION. The operations the commands share: interval closings, fire messages, commutations,
the guard, the group modes and trips, and the hand-off of a cycle reference. The instant at which a
command is taken is the state's `timebase`. -/

namespace Sys2Proof.Machine

open Sys2Proof

/-! ## Changes of level state and interval closings -/

/-- The count of one state in a tally changed by `f`. -/
def Tally.modify (t : Tally) (f : Nat → Nat) : LevelState → Tally
  | .absent => t
  | .unproven => { t with unproven := f t.unproven }
  | .sound => { t with sound := f t.sound }
  | .suspect => { t with suspect := f t.suspect }
  | .dark => { t with dark := f t.dark }
  | .faulted => { t with faulted := f t.faulted }
  | .retired => { t with retired := f t.retired }

/-- A change of level state takes 1 from the count of the old state and adds 1 to that of the new
one (R85). -/
def Tally.move (t : Tally) (old new : LevelState) : Tally :=
  (t.modify (· - 1) old).modify (· + 1) new

/-- The margin state of a failed count against Rv (R86). -/
def marginOf (failed rv : Nat) : Margin :=
  if failed < rv then .ample else if failed = rv then .atLimit else .exhausted

/-- A trip cause handed to the Group Mode Controller within the command being taken (R136). -/
def State.hand (s : State) (c : TripCause) : State := { s with handed := s.handed ++ [c] }

/-- A change of a level's state as it is handed on: STATE is posted, the valve is tallied, its
margin is judged anew, MARGIN is posted when it changes, and a change into EXHAUSTED hands
REDUNDANCY (R60, R85, R86, R87). -/
def State.levelChange (j : Valve) (s : State) (change : LevelState × LevelState) : State :=
  let s := s.post (.valve j) valveState
  let v := s.valve j
  let tally := v.monitor.tally.move change.1 change.2
  let margin := marginOf tally.failed (s.par (Par.rv j))
  let s := s.setValve j { v with monitor := { v.monitor with tally := tally, margin := margin } }
  if margin = v.monitor.margin then s
  else
    let s := s.post (.valve j) valveMargin
    if margin = .exhausted then s.hand .redundancy else s

/-- The readiness count in force. -/
def State.qv (s : State) (j : Valve) : Nat := s.par (Par.qv j)

/-- The closing of a valve's observation interval: the interval is valid when the indicated count is
Qv or more, the records are reviewed in position order, every change is handed on in that order, all
flags are cleared and both counts are 0 (R69 to R72, R95). -/
def State.closeInterval (j : Valve) (s : State) : State :=
  let v := s.valve j
  let r := reviewAll (s.par Par.msus) (s.par Par.mdark)
    (decide (s.qv j ≤ v.monitor.indicated)) s.counter v.levels
  let s := { s with counter := r.counter }
  let s := s.setValve j { v with levels := r.levels }
  let s := r.changes.foldl (State.levelChange j) s
  s.modValve j fun v => { v with monitor := { v.monitor with indicated := 0, distinctPfi := 0 } }

/-! ## Regimes and bypass legs -/

/-- The two valves of a leg of the Y bridge, upper valve first (Choosing the legs). -/
def Leg.yValves : Leg → Valve × Valve
  | .leg14 => (0, 6)
  | .leg36 => (4, 10)
  | .leg52 => (8, 2)

/-- The two valves of a leg of the D bridge, upper valve first (Choosing the legs). -/
def Leg.dValves : Leg → Valve × Valve
  | .leg14 => (1, 7)
  | .leg36 => (5, 11)
  | .leg52 => (9, 3)

/-- The four leg valves. -/
def Legs.valves (l : Legs) : List Valve :=
  [l.y.yValves.1, l.y.yValves.2, l.d.dValves.1, l.d.dValves.2]

/-- Valve `j` is a leg valve of a running gating. -/
def State.isLeg (s : State) (j : Valve) : Bool :=
  match s.group.legs with
  | some l => l.valves.contains j
  | none => false

/-- The regimes of a valve (Valve phases). -/
inductive Regime | scheduled | gated | free
deriving DecidableEq, Repr

/-- The regime in which valve `j` stands (Valve phases, R123). -/
def State.regime (s : State) (j : Valve) : Regime :=
  if s.group.mode = .running then .scheduled else if s.isLeg j then .gated else .free

/-- The upper valve that `j` is of the Y bridge, if it is one (Choosing the legs). -/
def upperOfY (j : Valve) : Option Upper :=
  match j with
  | 0 => some .one
  | 4 => some .three
  | 8 => some .five
  | _ => none

/-- The upper valve that `j` is of the D bridge, if it is one (Choosing the legs). -/
def upperOfD (j : Valve) : Option Upper :=
  match j with
  | 1 => some .one
  | 5 => some .three
  | 9 => some .five
  | _ => none

/-- The leg of a bridge's last upper valve, {1,4} when there is none (R133). -/
def legOf : Option Upper → Leg
  | none | some .one => .leg14
  | some .three => .leg36
  | some .five => .leg52

/-! ## The Margin Guard -/

/-- A commutation failure of valve `j` (R114). -/
def State.failCommutation (j : Valve) (s : State) : State :=
  let s := { s with guard := { s.guard with advance := s.par Par.advmax, mark := true } }
  let s := s.modValve j fun v => { v with commFailures := bump Config.count16 v.commFailures }
  s.post (.valve j) valveCfail

/-- The guard advance after a measured γ (R112). -/
def advanceAfter (a gamma gmin advmax advdec : Nat) : Nat :=
  if gamma < gmin then min advmax (a + (gmin - gamma)) else a - advdec

/-- The extinction margin from Bj to Dj at period `p` (R111). -/
def gammaOf (b d : Instant) (p : Nat) : Nat := min 30000 (ticksAngle (span b d) p)

/-- One measurement of the guard for valve `j` (R111, R112, R118). -/
def State.measure (j : Valve) (b d : Instant) (s : State) : State :=
  let gamma := gammaOf b d s.tracker.period
  let s := s.modValve j fun v => { v with lastGamma := some gamma }
  { s with guard := { s.guard with
      advance := advanceAfter s.guard.advance gamma (s.par Par.gmin) (s.par Par.advmax)
        (s.par Par.advdec)
      lowest := some (min gamma (s.guard.lowest.getD gamma)) } }

/-! ## Fire messages -/

/-- The kinds of firing (R105). -/
inductive FireKind | scheduled | late | forced | pulledIn | refire | protective | bypass
deriving DecidableEq, Repr

/-- The firing count of a kind goes up by 1 in whichever block keeps it (R84, R88). -/
def ValveRecord.countFiring (v : ValveRecord) (k : FireKind) : ValveRecord :=
  match k with
  | .scheduled =>
    { v with monitor := { v.monitor with scheduled := bump Config.count16 v.monitor.scheduled } }
  | .late => { v with monitor := { v.monitor with late := bump Config.count16 v.monitor.late } }
  | .forced =>
    { v with monitor := { v.monitor with forced := bump Config.count16 v.monitor.forced } }
  | .pulledIn =>
    { v with schedule := { v.schedule with pulledIn := bump Config.count16 v.schedule.pulledIn } }
  | .refire =>
    { v with monitor := { v.monitor with refire := bump Config.count16 v.monitor.refire } }
  | .protective =>
    { v with monitor := { v.monitor with protective := bump Config.count16 v.monitor.protective } }
  | .bypass => { v with bypasses := bump Config.count16 v.bypasses }

/-- The phase of a valve's record set. -/
def ValveRecord.withPhase (v : ValveRecord) (p : Phase) : ValveRecord :=
  { v with monitor := { v.monitor with phase := p } }

/-- The channel's last-send time set. -/
def ValveRecord.withLastSend (v : ValveRecord) (t : Instant) : ValveRecord :=
  { v with channel := { v.channel with lastSend := some t } }

/-- The FIRE message goes out on channel `j` with the timebase and the mask as they stand
(R38, R39). -/
def State.sendFire (j : Valve) (s : State) : State :=
  let s := { s with
    sent := .channel j (fireMessage s.timebase (fireMask (s.valve j).levels)) :: s.sent }
  s.modValve j fun v => v.withLastSend s.timebase

/-- An IDLE message goes out on channel `j` (R40). -/
def State.sendIdle (j : Valve) (s : State) : State :=
  let s := { s with sent := .channel j (idleMessage s.timebase) :: s.sent }
  s.modValve j fun v => v.withLastSend s.timebase

/-- Outside BLOCKED a fire message to an upper valve sets its bridge's last upper valve (R132). -/
def State.noteUpper (j : Valve) (s : State) : State :=
  if s.group.mode = .blocked then s
  else
    { s with group := { s.group with
        lastUpperY := (upperOfY j).or s.group.lastUpperY
        lastUpperD := (upperOfD j).or s.group.lastUpperD } }

/-- In the scheduled regime a fire message to its successor takes a CONDUCTING valve `j` to
COMMUTATING, or fails it at once when its Dj has been reached (R90). -/
def State.commutate (j : Valve) (s : State) : State :=
  let v := s.valve j
  if v.monitor.phase = .conducting then
    match v.schedule.deadline with
    | some d =>
      if reached s.timebase d then s.failCommutation j
      else s.setValve j (v.withPhase .commutating)
    | none => s.setValve j (v.withPhase .commutating)
  else s

/-- A fire message of kind `k` handed to channel `j` (R38, R88, R90, R132). -/
def State.fire (k : FireKind) (j : Valve) (s : State) : State :=
  let s := s.sendFire j
  let s := s.modValve j fun v =>
    let v := v.countFiring k
    { v with monitor := { v.monitor with lastFire := some s.timebase } }
  let s := s.noteUpper j
  let s :=
    if (s.valve j).monitor.phase = .conducting then s
    else (s.modValve j (·.withPhase .conducting)).closeInterval j
  if s.group.mode = .running then s.commutate (predecessor j) else s

/-- The scheduled firing of valve `j` is issued as kind `k`: Fj and the expiry of an open quorum
wait are removed (R30). -/
def State.issue (k : FireKind) (j : Valve) (s : State) : State :=
  (s.fire k j).modValve j fun v =>
    { v with schedule := { v.schedule with fireAt := none, expiry := none } }

/-! ## Group modes -/

/-- The event bit of the mode entered (R123). -/
def Mode.bit : Mode → BitVec 12
  | .blocked => modeBlocked
  | .deblocking => modeDeblocking
  | .running => modeRunning
  | .bypass => modeBypass

/-- The cancelling of every valve's schedule when RUNNING is left (R34). -/
def State.cancelSchedules (s : State) : State :=
  s.mapValves fun _ v =>
    { v with schedule := { v.schedule with fireAt := none, expiry := none, deadline := none } }

/-- What every change of mode does first: RUNNING left cancels the schedules (R34). -/
def State.leaveMode (s : State) : State :=
  if s.group.mode = .running then s.cancelSchedules else s

/-- The entry to BLOCKED (R131, R119). -/
def State.enterBlocked (s : State) : State :=
  let s := s.leaveMode
  let s := { s with
    group := { s.group with
      mode := .blocked, origin := none, lastUpperY := none, lastUpperD := none, legs := none
      gatingExpiry := none }
    guard := { s.guard with advance := 0 } }
  s.post .mode modeBlocked

/-- The entry to DEBLOCKING with the mode it came from (R126). -/
def State.enterDeblocking (o : Origin) (s : State) : State :=
  let s := { s with group := { s.group with mode := .deblocking, origin := some o } }
  s.post .mode modeDeblocking

/-- The entry to RUNNING (R128, R119). -/
def State.enterRunning (s : State) : State :=
  let s := { s with
    group := { s.group with mode := .running, origin := none, legs := none, gatingExpiry := none }
    guard := { s.guard with advance := 0 } }
  s.post .mode modeRunning

/-- A refusal of a deblock: the last refusal is replaced and REFUSED is posted (R127). -/
def State.refuse (r : RefusalReason) (s : State) : State :=
  let s := { s with group := { s.group with refusal := some r } }
  s.post .mode modeRefused

/-- The four leg valves in the order that choice `k` picks out of the twenty-four (R134: the four
messages stand in no order to one another). -/
def legOrder (k : Nat) (valves : List Valve) : List Valve :=
  match valves with
  | [a, b, c, d] =>
    (([a].insertIdx (k % 2) b).insertIdx (k / 2 % 3) c).insertIdx (k / 6 % 4) d
  | other => other

/-- A BYPASS fire message to each of the four leg valves (R134 step 3, R135). -/
def State.fireLegs (s : State) : State :=
  match s.group.legs with
  | none => s
  | some l =>
    let (k, s) := s.choose
    (legOrder k l.valves).foldl (fun s j => s.fire .bypass j) s

/-- The gating interval at the period in force: 6,000 cdeg (R135). -/
def State.gatingInterval (s : State) : Nat := angleTicks 6000 s.tracker.period

/-- A cause newly latched is added to the set and posted; one already held changes nothing
(R136). -/
def State.addTrip (s : State) (c : TripCause) : State :=
  if s.group.trips.has c then s
  else ({ s with group := { s.group with trips := s.group.trips.add c } }).post .trip c.bit

/-- The causes handed within an entry to BYPASS, which find the mode BYPASS and ask for no action
(R137). -/
def State.absorbHanded (s : State) : State :=
  s.handed.foldl State.addTrip { s with handed := [] }

/-- The entry to BYPASS: schedules cancelled and a running gating stopped, legs chosen, the four
messages, the gating expiry, BYPASS posted (R134, R133). -/
def State.enterBypass (s : State) : State :=
  let s := s.leaveMode
  let s := { s with group := { s.group with
    mode := .bypass, origin := none
    legs := some { y := legOf s.group.lastUpperY, d := legOf s.group.lastUpperD }
    gatingExpiry := none } }
  let s := s.fireLegs
  let s := { s with group := { s.group with
    gatingExpiry := some (after s.timebase s.gatingInterval) } }
  (s.post .mode modeBypass).absorbHanded

/-! ## Trips -/

/-- The action on a newly latched cause by the mode held (R137). -/
def State.actOnTrip (c : TripCause) (s : State) : State :=
  match s.group.mode with
  | .blocked | .bypass => s
  | .deblocking => s.enterBlocked.refuse .trip
  | .running => if s.par Par.byptrip = 1 ∨ c = .controlLoss then s.enterBypass else s

/-- A cause handed to the controller: not latched when it is held already, nor SYNC_LOST in BLOCKED;
otherwise added, posted and acted on at once in the mode held (R136, R137). SYNC_LOST beside a BLOCK that
is taken after it at the same tick is acted on in BLOCKED, the mode the group then enters, and BLOCKED
asks for no action: it is added and posted alone (R15, R138, assumption 25). -/
def State.latch (s : State) (c : TripCause) : State :=
  if s.group.trips.has c ∨ (c = .syncLost ∧ s.group.mode = .blocked) then s
  else if c = .syncLost ∧ s.blockFollows then s.addTrip c
  else (s.addTrip c).actOnTrip c

/-- The controller takes the causes handed within the command, in their order, after the command's
own effects (R138, assumption 4). -/
def State.settle (s : State) : State := s.handed.foldl State.latch { s with handed := [] }

/-- The five deblock preconditions in their order: the reason of the first that fails (R126). -/
def State.deblockFault (s : State) : Option RefusalReason :=
  if !s.isReady then some .notReady
  else if s.tracker.sync ≠ .locked then some .sync
  else if !s.group.trips.isEmpty then some .trip
  else if !(allValves.all fun j => (s.valve j).channel.up) then some .channel
  else
    (allValves.find? fun j =>
      decide (s.par (Par.rv j) < (s.valve j).failed + (s.valve j).unproven)).map .readiness

/-- A RUN request judged in BLOCKED or BYPASS (R126). -/
def State.requestRun (o : Origin) (s : State) : State :=
  match s.deblockFault with
  | none => s.enterDeblocking o
  | some r => s.refuse r

/-- The requested mode judged against the mode held (R124); outside READY the mode is held at
BLOCKED and RUN and BYPASS are refused with NOT_READY (R125). -/
def State.judgeRequest (r : Requested) (s : State) : State :=
  if !s.isReady then
    match r with
    | .block => s
    | .run | .bypass => s.refuse .notReady
  else
    match s.group.mode, r with
    | .blocked, .block | .deblocking, .run | .running, .run | .bypass, .bypass => s
    | .blocked, .run => s.requestRun .fromBlocked
    | .bypass, .run => s.requestRun .fromBypass
    | .deblocking, .block | .running, .block | .bypass, .block => s.enterBlocked
    | .blocked, .bypass | .deblocking, .bypass | .running, .bypass => s.enterBypass

/-- The clear-trip flag in BLOCKED removes each cause whose condition no longer holds (R139). -/
def State.clearTrips (s : State) : State :=
  if s.group.mode = .blocked then
    let t := s.group.trips
    { s with group := { s.group with trips := {
        redundancy := t.redundancy && allValves.any fun j =>
          (s.valve j).monitor.margin == .exhausted
        channel := t.channel && allValves.any fun j => !(s.valve j).channel.up
        syncLost := t.syncLost && s.tracker.sync == .lost } } }
  else s

/-- The recheck at the first cycle reference in DEBLOCKING (R128). -/
def State.recheck (s : State) : State :=
  if s.group.mode = .deblocking then
    match s.deblockFault with
    | none => s.enterRunning
    | some r => s.enterBlocked.refuse r
  else s

/-! ## The hand-off of a cycle reference -/

/-- The zero predicted for valve `j` from a reference (R20, R21). -/
def zeroFrom (im : Image) (j : Valve) (tref : Instant) (p : Nat) : Instant :=
  after tref (angleTicks (36000 + Par.theta j im) p)

/-- A predicted zero is appended to a zero queue (R22): the queue is empty, or holds one zero at
least floor(P/4) before it. -/
def zeroFits (zeros : List Instant) (z : Instant) (p : Nat) : Bool :=
  match zeros with
  | [] => true
  | [z1] => reached z (after z1 (p / 4))
  | _ => false

/-- A predicted zero offered to valve `j`: appended, or a zero slip that is counted and posted
(R22). -/
def State.offerZero (p : Nat) (z : Instant) (j : Valve) (s : State) : State :=
  let v := s.valve j
  if zeroFits v.schedule.zeros z p then
    s.setValve j { v with schedule := { v.schedule with zeros := v.schedule.zeros ++ [z] } }
  else
    (s.setValve j { v with
      schedule := { v.schedule with slips := bump Config.count16 v.schedule.slips } }).post
      (.valve j) valveSlip

/-- Prediction at a reference: every valve is offered its new zero (R21). -/
def State.predictZeros (im : Image) (tref : Instant) (p : Nat) (s : State) : State :=
  allValves.foldl (fun s j => s.offerZero p (zeroFrom im j tref p) j) s

/-- Every channel controller starts a new cycle of noise counting (R50). -/
def State.clearNoise (s : State) : State :=
  s.mapValves fun _ v => { v with channel := { v.channel with noiseCycle := 0 } }

/-- The guard closes the current cycle (R117, R118); a failure cycle that brings the count to CFLIM
or above hands PERSISTENT_CF. -/
def State.closeGuardCycle (s : State) : State :=
  let count := if s.guard.mark then bump Config.count8 s.guard.failCycles else 0
  let marked := s.guard.mark
  let s := { s with guard := { s.guard with
    failCycles := count, mark := false, reportedLow := s.guard.lowest, lowest := none } }
  if marked && decide (s.par Par.cflim ≤ count) then s.hand .persistentCf else s

/-- The recheck of DEBLOCKING and the causes handed at the reference. Where both fall at one
reference the spec leaves their order open (R8, R138): a choice picks it (assumption 5). -/
def State.recheckAndSettle (s : State) : State :=
  if s.group.mode = .deblocking then
    if s.handed.isEmpty then s.recheck
    else
      let (k, s) := s.choose
      if k % 2 = 0 then s.settle.recheck else s.recheck.settle
  else s.settle

/-- A cycle reference handed on to the blocks that count cycles, with `tracker` as it stands after
the reference less the cycle number, which goes up by 1 (R8, R9). -/
def State.handReference (im : Image) (tref : Instant) (s : State) : State :=
  let s := { s with tracker := { s.tracker with cycle := s.tracker.cycle + 1 } }
  let s := s.predictZeros im tref s.tracker.period
  s.clearNoise.closeGuardCycle.recheckAndSettle

end Sys2Proof.Machine
end

