-- ==== Sys2Proof/Machine/Channels.lean ====
section
/-! DEFINITION. The commands of the valve channels: PULSE_REPORT, OIU_IDLE,
MESSAGE_OF_UNKNOWN_KIND, CHANNEL_DOWN, VC12_IDLE. -/

namespace Sys2Proof.Machine

open Sys2Proof

/-! ## Supervision -/

/-- The channel of valve `j` changed. -/
def State.modChannel (j : Valve) (f : Channel → Channel) (s : State) : State :=
  s.modValve j fun v => { v with channel := f v.channel }

/-- A message that fails a check of R41: counted, and the run of a DOWN channel is broken. -/
def State.discardMessage (j : Valve) (s : State) : State :=
  s.modChannel j fun c =>
    { c with errors := bump Config.count16 c.errors, run := if c.up then c.run else 0 }

/-- The good-message run of a DOWN channel at a valid message (R44). -/
def Channel.nextRun (c : Channel) (now : Instant) : Nat :=
  match c.lastMessage with
  | some m => if 1 ≤ c.run ∧ span m now ≤ Config.channelSilence then c.run + 1 else 1
  | none => 1

/-- A valid message on channel `j` is taken by supervision (R42, R43, R44). -/
def State.superviseMessage (j : Valve) (s : State) : State :=
  let c := (s.valve j).channel
  let heard := s.modChannel j fun c => { c with lastMessage := some s.timebase }
  if c.up then heard
  else if Config.provingRun ≤ c.nextRun s.timebase then
    (heard.modChannel j fun c => { c with up := true, run := 0 }).post (.valve j) valveChannel
  else heard.modChannel j fun c' => { c' with run := c.nextRun s.timebase }

/-- A report classified NOISE (R50). -/
def State.countNoise (im : Image) (j : Valve) (s : State) : State :=
  let n := (s.valve j).channel.noiseCycle
  let s := s.modChannel j fun c =>
    { c with noiseTotal := bump Config.count16 c.noiseTotal
             noiseCycle := bump Config.count8 c.noiseCycle }
  if n < Config.count8 ∧ n + 1 = Par.noiselim im then s.post (.valve j) valveNoise else s

/-! ## Reports -/

/-- The mark of an IND or PFI of valve `j` (R96). -/
def State.markOf (s : State) (j : Valve) : Mark :=
  if (s.valve j).monitor.phase = .conducting ∧ s.regime j ≠ .free then .conduction else .interval

/-- The valve's counts after a report (R98). -/
def Monitor.afterReport (m : Monitor) (a : Answer) : Monitor :=
  { m with
    indicated := (m.indicated + a.indSet.toNat) - a.indCleared.toNat
    distinctPfi := m.distinctPfi + a.pfiSet.toNat }

/-- Steps 2 and 3 of R97: the table takes the report, a change of state is stamped and handed on, and
the counts are brought up to date. -/
def State.applyAnswer (j : Valve) (p : Nat) (a : Answer) (s : State) : State :=
  let v := s.valve j
  let old := (v.level p).state
  let changed := a.level.state ≠ old
  let level := if changed then { a.level with stamp := nextStamp s.counter } else a.level
  let s := if changed then { s with counter := nextCounter s.counter } else s
  let s := s.setValve j
    { v.setLevel p level with monitor := v.monitor.afterReport a }
  if changed then s.levelChange j (old, a.level.state) else s

/-- The protective firing of valve `j`; an open quorum wait ends with the held firing issued
SCHEDULED right after it (R102, R104). -/
def State.fireProtective (j : Valve) (s : State) : State :=
  let s := (s.fire .protective j).post (.valve j) valveProtective
  if (s.valve j).schedule.expiry.isSome then s.issue .scheduled j else s

/-- The protective check triggers: the report newly set a PFI flag, the distinct-PFI count is PTv or
more, and the valve is BLOCKING or COMMUTATING (R102). -/
def State.protectiveDue (s : State) (j : Valve) (a : Answer) : Bool :=
  a.pfiSet && decide (s.par (Par.ptv j) ≤ (s.valve j).monitor.distinctPfi)
    && (s.valve j).monitor.phase != .conducting

/-- A COMMUTATING valve blocks back at a report stamped `b` (R91). -/
def State.blockBack (j : Valve) (b : Instant) (s : State) : State :=
  let v := (s.valve j).withPhase .blocking
  match v.schedule.deadline with
  | some d =>
    (s.setValve j { v with monitor := { v.monitor with blockBack := some b } }).measure j b d
  | none => s.setValve j v

/-- The indicated count has just come to Qv: block-back, late firing, or the return to BLOCKING
(R97 step 5, R91, R93, R99). -/
def State.quorumReached (j : Valve) (b : Instant) (s : State) : State :=
  let v := s.valve j
  if s.regime j = .free then
    if v.monitor.phase = .blocking then s else s.setValve j (v.withPhase .blocking)
  else if v.monitor.phase = .commutating then s.blockBack j b
  else if v.schedule.expiry.isSome then (s.issue .late j).post (.valve j) valveLate
  else s

/-- The spacing since the valve's last fire message allows a refire (R101). -/
def State.refireDue (s : State) (j : Valve) : Bool :=
  match (s.valve j).monitor.lastFire with
  | none => true
  | some f => decide (s.par Par.refsp ≤ span f s.timebase)

/-- Step 5 of R97 for a counting indication. -/
def State.actOnIndication (j : Valve) (mark : Mark) (a : Answer) (b : Instant) (s : State) :
    State :=
  match mark with
  | .interval =>
    if a.indSet ∧ (s.valve j).monitor.indicated = s.qv j then s.quorumReached j b else s
  | .conduction => if s.refireDue j then s.fire .refire j else s

/-- The Valve Monitor takes an IND, PFI or LFT of level (j, p) stamped `b` whole, in the five steps of
R97. -/
def State.takeReport (j : Valve) (p : Nat) (cls : ReportClass) (b : Instant) (s : State) : State :=
  let mark := s.markOf j
  let level := (s.valve j).level p
  if level.state = .absent then s
  else
    let a := level.take cls mark b s.tracker.cycle
    let s := s.applyAnswer j p a
    if s.protectiveDue j a then s.fireProtective j
    else if a.standing = .counting then s.actOnIndication j mark a b
    else s

/-- A valid PULSE REPORT is classified and handed on (R47, R49, R50). -/
def State.takePulseReport (im : Image) (j : Valve) (r : PulseReport) (s : State) : State :=
  match classify im j s.timebase r with
  | .noise => s.countNoise im j
  | .ind => (s.takeReport j r.position .ind r.stamp).settle
  | .pfi => (s.takeReport j r.position .pfi r.stamp).settle
  | .lft => (s.takeReport j r.position .lft r.stamp).settle

/-- A message arrives on channel `j` with what its checks make of it; a channel that is not served
drops it unread (R37, R41, R42). -/
def State.messageArrives (j : Valve) (m : Option Inbound) (s : State) : State :=
  match s.working with
  | none => s
  | some im =>
    match m with
    | none => s.discardMessage j
    | some .idle => s.superviseMessage j
    | some (.report r) => (s.superviseMessage j).takePulseReport im j r

/-- PULSE_REPORT: a message of kind 81 hex (R41, R42, R47). -/
def execPulseReport (t : Instant) (j : Valve) (body : List Byte) (s : State) :
    Host.Outcome State Fault Refusal :=
  s.atTick t (State.messageArrives j (readMessage (pulseReportKind :: body)))

/-- OIU_IDLE: a message of kind 82 hex (R41, R42). -/
def execOiuIdle (t : Instant) (j : Valve) (body : List Byte) (s : State) :
    Host.Outcome State Fault Refusal :=
  s.atTick t (State.messageArrives j (readMessage (oiuIdleKind :: body)))

/-- MESSAGE_OF_UNKNOWN_KIND: a message of any other kind fails the first check (R41). -/
def execMessageOfUnknownKind (t : Instant) (j : Valve) (msg : List Byte) (s : State) :
    Host.Outcome State Fault Refusal :=
  s.atTick t (State.messageArrives j (readMessage msg))

/-- CHANNEL_DOWN: the silence limit of an UP channel is reached (R43). -/
def execChannelDown (t : Instant) (j : Valve) (s : State) : Host.Outcome State Fault Refusal :=
  s.atTick t fun s =>
    match s.working, (s.valve j).channel.up, (s.valve j).channel.lastMessage with
    | some _, true, some m =>
      if reached t (after m Config.channelSilence) then
        (((s.modChannel j fun c => { c with up := false, run := 0 }).post
          (.valve j) valveChannel).hand .channel).settle
      else s
    | _, _, _ => s

/-- VC12_IDLE: 500 ticks have passed since the last send on a served channel (R40). -/
def execVc12Idle (t : Instant) (j : Valve) (s : State) : Host.Outcome State Fault Refusal :=
  s.atTick t fun s =>
    match s.working, (s.valve j).channel.lastSend with
    | some _, some m => if reached t (after m Config.idleSpan) then s.sendIdle j else s
    | _, _ => s

end Sys2Proof.Machine
end

