-- ==== Sys2Proof/Machine/Firing.lean ====
section
/-! DEFINITION. The commands of the Firing Scheduler and of the firing path: TAKE_UP,
FIRING_INSTANT, FORCED_FIRING, EXTINCTION_DEADLINE, BYPASS_GATING. -/

namespace Sys2Proof.Machine

open Sys2Proof

/-- α_eff as a take-up latches it (R25). -/
def State.latchedAngle (s : State) : Nat :=
  let alpha := s.order.alpha.toNat
  let lo := s.par Par.amin
  let hi := s.par Par.amax
  if s.par Par.guard = 1 ∧ s.group.mode = .running ∧ 9000 ≤ alpha then
    clamp (alpha - s.guard.advance) lo hi
  else clamp alpha lo hi

/-- An unissued firing of valve `j` is issued at once as PULLED-IN (R29). -/
def State.pullIn (j : Valve) (s : State) : State :=
  if (s.valve j).schedule.fireAt.isSome then (s.issue .pulledIn j).post (.valve j) valveSlip else s

/-- The new cycle of valve `j` from its current zero (R28). -/
def State.scheduleFiring (j : Valve) (s : State) : State :=
  let p := s.tracker.period
  s.modValve j fun v => { v with schedule := { v.schedule with
    fireAt := some (after v.schedule.zero (angleTicks v.schedule.alphaEff p))
    deadline := some (after v.schedule.zero (angleTicks 30000 p))
    waitLength := angleTicks (s.par Par.qwait) p } }

/-- A take-up outside RUNNING closes the interval of a BLOCKING valve in BLOCKED, and in BYPASS of
one outside the legs (R33, R95). -/
def State.closeAtTakeUp (j : Valve) (s : State) : State :=
  if (s.valve j).monitor.phase = .blocking
      ∧ (s.group.mode = .blocked ∨ (s.group.mode = .bypass ∧ s.isLeg j = false)) then
    s.closeInterval j
  else s

/-- The zero `z` becomes Zj, and α_eff is latched (R24, R25). -/
def State.takeZero (j : Valve) (z : Instant) (rest : List Instant) (s : State) : State :=
  let angle := s.latchedAngle
  s.modValve j fun v =>
    { v with schedule := { v.schedule with zeros := rest, zero := z, alphaEff := angle } }

/-- TAKE_UP of valve `j` (R24, R28, R29, R33). -/
def execTakeUp (t : Instant) (j : Valve) (s : State) : Host.Outcome State Fault Refusal :=
  s.atTick t fun s =>
    match (s.valve j).schedule.zeros with
    | [] => s
    | z :: rest =>
      if reached t z then
        let s := s.takeZero j z rest
        (if s.group.mode = .running then (s.pullIn j).scheduleFiring j
         else s.closeAtTakeUp j).settle
      else s

/-- The readiness check of valve `j` at its firing instant `f` (R99): fired SCHEDULED, or held in a
quorum wait. -/
def State.checkReadiness (j : Valve) (f : Instant) (s : State) : State :=
  let v := s.valve j
  if v.monitor.phase = .blocking ∧ v.monitor.indicated < s.qv j then
    s.setValve j { v with schedule := { v.schedule with
      expiry := some (after f v.schedule.waitLength) } }
  else s.issue .scheduled j

/-- FIRING_INSTANT of valve `j`: Fj is reached in RUNNING and the firing is not yet held (R30,
R99). -/
def execFiringInstant (t : Instant) (j : Valve) (s : State) : Host.Outcome State Fault Refusal :=
  s.atTick t fun s =>
    match (s.valve j).schedule.fireAt, (s.valve j).schedule.expiry with
    | some f, none =>
      if s.group.mode = .running ∧ reached t f then (s.checkReadiness j f).settle else s
    | _, _ => s

/-- FORCED_FIRING of valve `j`: the expiry of an open quorum wait is reached (R100). -/
def execForcedFiring (t : Instant) (j : Valve) (s : State) : Host.Outcome State Fault Refusal :=
  s.atTick t fun s =>
    match (s.valve j).schedule.expiry with
    | some e =>
      if reached t e then ((s.issue .forced j).post (.valve j) valveForced).settle else s
    | none => s

/-- EXTINCTION_DEADLINE of valve `j`: a COMMUTATING valve has failed (R32, R92, R114). -/
def execExtinctionDeadline (t : Instant) (j : Valve) (s : State) :
    Host.Outcome State Fault Refusal :=
  s.atTick t fun s =>
    match (s.valve j).schedule.deadline with
    | some d =>
      if s.group.mode = .running ∧ reached t d ∧ (s.valve j).monitor.phase = .commutating then
        (s.modValve j (·.withPhase .conducting)).failCommutation j
      else s
    | none => s

/-- BYPASS_GATING: the gating expiry is reached, the four leg valves are fired BYPASS, and the next
expiry follows from the one reached (R135). -/
def execBypassGating (t : Instant) (s : State) : Host.Outcome State Fault Refusal :=
  s.atTick t fun s =>
    match s.group.legs, s.group.gatingExpiry with
    | some _, some e =>
      if reached t e then
        let s := s.fireLegs
        { s with group := { s.group with
          gatingExpiry := some (after e s.gatingInterval) } }.settle
      else s
    | _, _ => s

end Sys2Proof.Machine
end

