-- ==== Sys2Proof/Machine/LinkOps.lean ====
section
/-! DEFINITION. The Link Selector's taking of orders, and the forming and queueing of replies
(08_converter_control_links.md). -/

namespace Sys2Proof.Machine

open Sys2Proof

/-- The address a reply carries: GADDR in READY, else that of the frame answered (R150). -/
def State.replyAddress (s : State) (received : BitVec 6) : BitVec 6 :=
  match s.unit with
  | .ready im => BitVec.ofNat 6 (Par.gaddr im)
  | _ => received

/-- A formed reply goes on the line, or waits behind the one that is there (R151). -/
def LinkState.enqueue (k : LinkState) (r : Reply) : LinkState :=
  match k.onLine with
  | none => { k with onLine := some r }
  | some _ => { k with waiting := k.waiting ++ [r] }

/-- Two replies are waiting, so that a further one is not formed (R151). -/
def LinkState.replyFull (k : LinkState) : Bool := decide (2 ≤ k.waiting.length)

/-- A reply that is not formed adds 1 to the link's error count and posts nothing (R151). -/
def LinkState.dropReply (k : LinkState) : LinkState :=
  { k with errors := bump Config.count16 k.errors }

/-- The status frame of link `l`, every field at the value its owner holds (R150, R153). -/
def State.statusFrame (s : State) (l : Link) (address : BitVec 6) : StatusFrame where
  address := s.replyAddress address
  unitCode := s.unit.code
  mode := s.group.mode
  sync := s.tracker.sync
  cause := s.startCause
  sel := s.sel
  roleA := s.linkA.role
  roleB := s.linkB.role
  silentA := s.linkA.silent
  silentB := s.linkB.silent
  refusal := s.group.refusal
  trips := s.group.trips
  advance := s.guard.advance
  gammaLow := s.guard.reportedLow
  cycle := s.tracker.cycle
  disturbances := s.tracker.disturbances
  errors := (s.link l).errors
  foreign := (s.link l).foreign
  counter := s.counter
  summaries := allValves.map fun j =>
    { failed := (s.valve j).failed, unproven := (s.valve j).unproven
      margin := (s.valve j).monitor.margin }
  attention := (s.link l).topWord

/-- The status frame that answers an order on link `l`, unless its reply queue is full (R150, R151,
R153): the word it carries leaves the set. -/
def State.replyStatus (l : Link) (address : BitVec 6) (s : State) : State :=
  if (s.link l).replyFull then s.modLink l LinkState.dropReply
  else
    s.modLink l fun k => k.dropTopWord.enqueue (.status (s.statusFrame l address))

/-- The service reply on link `l`, unless its reply queue is full (R151, R155); the stored result
goes out with it (R157). -/
def State.replyService (l : Link) (address : BitVec 6) (code : BitVec 4) (result : ServiceResult)
    (data : List Byte) (s : State) : State :=
  if (s.link l).replyFull then s.modLink l LinkState.dropReply
  else
    { s.modLink l fun k => k.enqueue (.service
        { address := s.replyAddress address, code := code, stored := s.stored, result := result
          counter := s.counter, data := data }) with stored := .none }

/-- An ORDER frame is taken: the active order is replaced, the no-action limit starts anew, and the
controller takes the clear-trip flag and then the requested mode (R148, R124). -/
def State.takeOrder (f : OrderFrame) (s : State) : State :=
  let s := { s with
    order := { alpha := f.alpha, requested := requestedOf f.mode }
    lastTaken := some s.timebase
    limitPassed := false }
  let s := if f.clearTrip then s.clearTrips else s
  (s.judgeRequest (requestedOf f.mode)).settle

/-- A valid ORDER frame after the switch rule: taken when it claims ACTIVE on SEL, and answered
(R148, R150). -/
def State.serveOrder (l : Link) (f : OrderFrame) (s : State) : State :=
  (if f.role = .active ∧ s.sel = l then s.takeOrder f else s).replyStatus l f.address

end Sys2Proof.Machine
end

