-- ==== Sys2Proof/Machine/Blocks.lean ====
section
/-! DEFINITION. What a reset, an entry to READY and an APPLY set in every block (R16, R17, R35, R51,
R52, R81, R82, R107, R108, R121, R122, R141, R154, R165, R167). -/

namespace Sys2Proof.Machine

open Sys2Proof

/-- Every block at its values after a reset; the unit and the start cause are the caller's. What the
outside world holds stays: the level of the reference input, what has gone out on the lines, the
choices to come, the waiting commands (R167, assumption 3). -/
def State.resetBlocks (s : State) : State :=
  { State.reset with
    startCause := s.startCause, refHigh := s.refHigh, sent := s.sent, choices := s.choices
    pending := s.pending }

/-- What holds the part in reset, if it is held. -/
def State.heldBy (s : State) : Option HeldBy :=
  match s.unit with
  | .held h => some h.heldBy
  | _ => none

/-- What holds the part once a power-on reset has taken effect (R167, assumption 15). -/
def HeldBy.addPowerOn : Option HeldBy → HeldBy
  | none | some .powerOn => .powerOn
  | some .pin | some .both => .both

/-- What holds the part once a pin reset has taken effect (R167). -/
def HeldBy.addPin : Option HeldBy → HeldBy
  | none | some .pin => .pin
  | some .powerOn | some .both => .both

/-- What holds the part after the event `e`, none when nothing does (R167, assumption 15). -/
def HeldBy.after (b : HeldBy) (e : ResetEnd) : Option HeldBy :=
  match b, e with
  | .powerOn, .supplyStable | .pin, .pinHigh => none
  | .both, .supplyStable | .pin, .supplyStable => some .pin
  | .both, .pinHigh | .powerOn, .pinHigh => some .powerOn

/-- A reset with start cause `c` takes effect, and the part is then held by `b` (R167). -/
def State.holdInReset (c : StartCause) (b : HeldBy) (s : State) : State :=
  { s.resetBlocks with unit := .held { cause := c, heldBy := b } }

/-- A reset of kind `c` ends: the unit enters LOADING and starts its read (R164, R167). -/
def State.beginLoading (c : StartCause) (s : State) : State :=
  { s with unit := .loading s.timebase, startCause := c }

/-- The Phase Tracker as it starts under an image: SEEKING at Pnom, the detector DISARMED with tl
present when the input is low (R1, R16, R17). -/
def Tracker.started (im : Image) (refHigh : Bool) (now : Instant) : Tracker :=
  { period := Par.pnom im, detector := .disarmed (if refHigh then none else some now) }

/-- A valve under a new configuration: every installed level UNPROVEN, the record tallied from them,
the schedule and the channel at their values after a reset, the last-send time kept (R35, R52, R81,
R82, R107, R108, R121, R122, R141). -/
def ValveRecord.started (im : Image) (j : Valve) (lastSend : Option Instant) : ValveRecord :=
  { monitor := { tally := { unproven := Par.nv j im }, margin := marginOf 0 (Par.rv j im) }
    channel := { lastSend := lastSend }
    levels := List.replicate (Par.nv j im) Level.initial }

/-- Every block but the Group Mode Controller started under the image `im`, the unit READY, SEEKING
posted, and the silence limits of the links judged with the new TSIL (R16, R17, R81, R82, R145,
R164, R165). -/
def State.startBlocks (im : Image) (s : State) : State :=
  let s := { s with
    unit := .ready im
    tracker := Tracker.started im s.refHigh s.timebase
    counter := 0
    valves := Vector.ofFn fun j => ValveRecord.started im j s.valves[j].channel.lastSend
    guard := {} }
  ((s.post .sync syncSeeking).judgeSilence .a).judgeSilence .b

/-- Every channel controller begins to serve its channel and sends an IDLE at once (R37). -/
def State.beginService (s : State) : State := allValves.foldl (fun s j => s.sendIdle j) s

/-- The unit enters READY from LOADING under a valid image; the Group Mode Controller keeps its
values, a refusal met in LOADING among them (R164, R141). -/
def State.enterReady (im : Image) (s : State) : State := (s.startBlocks im).beginService

/-- An APPLY of the valid staging image takes effect (R165): from CONFIG_FAULT the channels begin to
be served, in READY they keep their IDLE cadence (R37, R52); the Group Mode Controller takes its
values of R141. -/
def State.applyStaging (s : State) : State :=
  let wasReady := s.isReady
  let s := { s.startBlocks s.staging with group := {} }
  let s := if wasReady then s else s.beginService
  s.post .mode modeConfigApplied

end Sys2Proof.Machine
end

