-- ==== Sys2Proof/Machine/ServiceOps.lean ====
section
/-! DEFINITION. What each service request does once its frame has passed the checks, acted on its
link and met the switch rule (09_service_requests.md, and the maintenance rules R74 to R79). -/

namespace Sys2Proof.Machine

open Sys2Proof

/-- The access rule of changing requests: the frame claims ACTIVE and comes on SEL (R156). -/
def State.mayChange (s : State) (l : Link) (r : Role) : Bool := r == .active && s.sel == l

/-- A valve index byte 1 … 12 as a valve. -/
def valveOf (j : Byte) : Option Valve :=
  if h : 1 ≤ j.toNat ∧ j.toNat ≤ Config.valveCount then some ⟨j.toNat - 1, by omega⟩ else none

/-- A level address in range: j in 1 … 12 and p in 1 … 80 (R74, R159). -/
def addressOf (j p : Byte) : Option (Valve × Nat) :=
  if inRange 1 Config.positionCount p.toNat then (valveOf j).map fun v => (v, p.toNat) else none

/-- The address of an installed record: in range, and not ABSENT (R74, R158). -/
def State.installedAt (s : State) (j p : Byte) : Option (Valve × Nat) :=
  match addressOf j p with
  | some (v, p) => if ((s.valve v).level p).state = .absent then none else some (v, p)
  | none => none

/-- The level record at an address as reply data (R158). -/
def State.levelData (s : State) (v : Valve) (p : Nat) : List Byte :=
  ((s.valve v).level p).bytes (v.val + 1) p

/-! ## Reading requests (R158, R159, R161) -/

/-- LOOK UP LEVEL: its result and its data (R158). -/
def State.lookUpLevelResult (s : State) (j p : Byte) : ServiceResult × List Byte :=
  if !s.isReady then (.noConfig, [])
  else
    match s.installedAt j p with
    | none => (.badAddress, [])
    | some (v, p) => (.ok, s.levelData v p)

/-- LOOK UP VALVE: its result and its data, in every unit state (R158). -/
def State.lookUpValveResult (s : State) (j : Byte) : ServiceResult × List Byte :=
  match valveOf j with
  | none => (.badAddress, [])
  | some v =>
    (.ok, (s.valve v).bytes v (s.par (Par.nv v)) (s.par (Par.rv v)) (s.par (Par.ptv v)))

/-- CONFIG READ: its result and its data (R161). -/
def State.configReadResult (s : State) (a n : Byte) : ServiceResult × List Byte :=
  match s.working with
  | none => (.noConfig, [])
  | some im =>
    if inRange 1 8 n.toNat && decide (a.toNat + n.toNat ≤ Config.imageWords) then
      (.ok, a :: n :: ((im.toList.drop a.toNat).take n.toNat).flatMap bytes2)
    else (.badAddress, [])

/-- A cursor as reply data. -/
def Cursor.bytes (c : Cursor) : List Byte := [byteOf (c.valve.val + 1), byteOf c.position]

/-- A record's place in table order, from 0. -/
def Cursor.index (c : Cursor) : Nat := c.valve.val * Config.positionCount + (c.position - 1)

/-- The records of the whole table. -/
def tableSize : Nat := Config.valveCount * Config.positionCount

/-- The address at a place in table order; past the last record, (1, 1) (R159). -/
def cursorAt (n : Nat) : Cursor :=
  if h : n / Config.positionCount < Config.valveCount then
    { valve := ⟨n / Config.positionCount, h⟩, position := n % Config.positionCount + 1 }
  else {}

/-- The record at a place in table order. -/
def State.recordAt (s : State) (n : Nat) : Level := (s.valve (cursorAt n).valve).level (cursorAt n).position

/-- The walk takes a record: installed, and stamped above S (R159). -/
def Level.walked (since : Nat) (l : Level) : Bool := l.state != .absent && decide (since < l.stamp)

/-- The examining of records in table order: `left` records from place `n` on, until `room` have been
taken or none is left. It gives the places taken and the place after the last record examined
(R159). -/
def State.walkFrom (s : State) (since : Nat) : (left n room : Nat) → List Nat × Nat
  | 0, n, _ => ([], n)
  | _ + 1, n, 0 => ([], n)
  | left + 1, n, room + 1 =>
    if (s.recordAt n).walked since then
      let (taken, last) := s.walkFrom since left (n + 1) room
      (n :: taken, last)
    else s.walkFrom since left (n + 1) (room + 1)

/-- The walk of one request from the cursor of link `l` (R159). -/
def State.walkResult (s : State) (l : Link) (since : Nat) : List Nat × Nat :=
  s.walkFrom since (tableSize - (s.link l).cursor.index) (s.link l).cursor.index 4

/-- The data of a walk reply: the end flag and the number taken, the cursor after the walk, the
records (R159). Bits 6 to 3 of its first byte, on which the spec is silent, are sent as 0
(assumption 10). -/
def State.walkData (s : State) (taken : List Nat) (next : Nat) : List Byte :=
  (flag (next == tableSize) ++ (0 : BitVec 4) ++ BitVec.ofNat 3 taken.length)
    :: ((cursorAt next).bytes ++ taken.flatMap fun n =>
      s.levelData (cursorAt n).valve (cursorAt n).position)

/-- The cursor of link `l` set. -/
def State.setCursor (l : Link) (c : Cursor) (s : State) : State :=
  s.modLink l fun k => { k with cursor := c }

/-! ## Maintenance requests (R74 to R79, R160) -/

/-- The record (v, p) replaced by a stamped change (R57, R59). -/
def State.stampLevel (v : Valve) (p : Nat) (l : Level) (s : State) : State :=
  let s := s.modValve v fun r => r.setLevel p { l with stamp := nextStamp s.counter }
  { s with counter := nextCounter s.counter }

/-- A change of the record's state, where there is one, is handed on (R60). -/
def State.handChange (v : Valve) (old new : LevelState) (s : State) : State :=
  if old = new then s else s.levelChange v (old, new)

/-- A RETIRE of an installed record is refused with WOULD_EXHAUST (R75). -/
def State.wouldExhaust (s : State) (v : Valve) (p : Nat) : Bool :=
  s.group.mode != .blocked && ((s.valve v).level p).state.counting
    && (s.valve v).failed == s.par (Par.rv v)

/-- An accepted RETIRE (R76, R68). -/
def State.retireLevel (k : Link) (v : Valve) (p : Nat) (s : State) : State :=
  let l := (s.valve v).level p
  let s := s.stampLevel v p (l.retire k)
  let s :=
    if l.state.counting && l.indicated then
      s.modValve v fun r =>
        { r with monitor := { r.monitor with indicated := r.monitor.indicated - 1 } }
    else s
  (s.handChange v l.state .retired).settle

/-- An accepted RESTORE (R78). -/
def State.restoreLevel (v : Valve) (p : Nat) (s : State) : State :=
  let l := (s.valve v).level p
  ((s.stampLevel v p l.restore).handChange v l.state .unproven).settle

/-- An accepted CLEAR COUNTS (R79). -/
def State.clearLevelCounts (v : Valve) (p : Nat) (s : State) : State :=
  s.stampLevel v p ((s.valve v).level p).clearCounts

/-- RETIRE: the checks of R74 and R75 and, when accepted, the change; the result and the record as
reply data (R160). -/
def State.retireRequest (k : Link) (j p : Byte) (s : State) : State × ServiceResult × List Byte :=
  if !s.isReady then (s, .noConfig, [])
  else
    match s.installedAt j p with
    | none => (s, .badAddress, [])
    | some (v, p) =>
      if s.wouldExhaust v p then (s, .wouldExhaust, [])
      else
        let s := s.retireLevel k v p
        (s, .ok, s.levelData v p)

/-- RESTORE: the checks of R74 and R77 and, when accepted, the change (R78, R160). -/
def State.restoreRequest (j p : Byte) (s : State) : State × ServiceResult × List Byte :=
  if !s.isReady then (s, .noConfig, [])
  else
    match s.installedAt j p with
    | none => (s, .badAddress, [])
    | some (v, p) =>
      if s.group.mode = .blocked ∧ ((s.valve v).level p).state.failed then
        let s := s.restoreLevel v p
        (s, .ok, s.levelData v p)
      else (s, .wrongMode, [])

/-- CLEAR COUNTS: the checks of R74 and, when accepted, the change (R79, R160). -/
def State.clearCountsRequest (j p : Byte) (s : State) : State × ServiceResult × List Byte :=
  if !s.isReady then (s, .noConfig, [])
  else
    match s.installedAt j p with
    | none => (s, .badAddress, [])
    | some (v, p) =>
      let s := s.clearLevelCounts v p
      (s, .ok, s.levelData v p)

/-! ## Configuration requests (R161, R162) -/

/-- The unit is in LOADING. -/
def State.isLoading (s : State) : Bool :=
  match s.unit with
  | .loading _ => true
  | _ => false

/-- CONFIG WRITE (R161). -/
def State.configWriteRequest (a n : Byte) (data : Vector Word16 8) (s : State) :
    State × ServiceResult :=
  if s.isLoading then (s, .noConfig)
  else if inRange 1 8 n.toNat && decide (a.toNat + n.toNat ≤ Config.imageWords) then
    ({ s with staging := imageWrite s.staging a.toNat n.toNat data }, .ok)
  else (s, .badAddress)

/-- CONFIG APPLY (R162, R165). -/
def State.configApplyRequest (s : State) : State × ServiceResult :=
  if s.store.isSome then (s, .busy)
  else if s.isLoading then (s, .noConfig)
  else if s.isReady && s.group.mode != .blocked then (s, .wrongMode)
  else if imageValid s.staging then (s.applyStaging, .ok)
  else (s, .invalidImage)

/-- CONFIG STORE (R162, R166). -/
def State.configStoreRequest (s : State) : State × ServiceResult :=
  if s.store.isSome then (s, .busy)
  else
    match s.working with
    | none => (s, .noConfig)
    | some im =>
      if s.group.mode = .blocked then
        ({ s with store := some { began := s.timebase, words := im } }, .ok)
      else (s, .wrongMode)

/-- The service reset, which ends at the instant it is taken (R162, R167). -/
def State.serviceReset (s : State) : State := s.resetBlocks.beginLoading .service

/-- Why a RESET request is refused, if it is (R162). -/
def State.resetRefusal (s : State) : Option ServiceResult :=
  if s.store.isSome then some .busy
  else if s.group.mode != .blocked then some .wrongMode
  else none

/-! ## Serving a request -/

/-- A reading request that changes nothing is answered (R156). -/
def State.answer (l : Link) (h : ServiceHead) (code : BitVec 4) (r : ServiceResult × List Byte)
    (s : State) : State :=
  s.replyService l h.address code r.1 r.2

/-- A changing request: refused with NOT_ACTIVE unless its frame claims ACTIVE on SEL; otherwise
carried out by `run`, and answered from the state it leaves (R155, R156). -/
def State.change (l : Link) (h : ServiceHead) (code : BitVec 4)
    (run : State → State × ServiceResult × List Byte) (s : State) : State :=
  if s.mayChange l h.role then
    let (s, result, data) := run s
    s.replyService l h.address code result data
  else s.replyService l h.address code .notActive []

def State.serveLookUpLevel (l : Link) (h : ServiceHead) (j p : Byte) (s : State) : State :=
  s.answer l h (Request.lookUpLevel j p).code (s.lookUpLevelResult j p)

def State.serveLookUpValve (l : Link) (h : ServiceHead) (j : Byte) (s : State) : State :=
  s.answer l h (Request.lookUpValve j).code (s.lookUpValveResult j)

/-- SEEK sets the cursor of its own link (R159). -/
def State.serveSeek (l : Link) (h : ServiceHead) (j p : Byte) (s : State) : State :=
  match addressOf j p with
  | none => s.answer l h (Request.seek j p).code (.badAddress, [])
  | some (v, p') =>
    let c : Cursor := { valve := v, position := p' }
    (s.setCursor l c).answer l h (Request.seek j p).code (.ok, c.bytes)

/-- WALK returns records stamped above S and moves the cursor on (R159). -/
def State.serveWalk (l : Link) (h : ServiceHead) (since : BitVec 32) (s : State) : State :=
  if s.isReady then
    let (taken, next) := s.walkResult l since.toNat
    (s.setCursor l (cursorAt next)).answer l h (Request.walk since).code
      (.ok, s.walkData taken next)
  else s.answer l h (Request.walk since).code (.noConfig, [])

def State.serveRetire (l : Link) (h : ServiceHead) (j p : Byte) (s : State) : State :=
  s.change l h (Request.retire j p).code (State.retireRequest l j p)

def State.serveRestore (l : Link) (h : ServiceHead) (j p : Byte) (s : State) : State :=
  s.change l h (Request.restore j p).code (State.restoreRequest j p)

def State.serveClearCounts (l : Link) (h : ServiceHead) (j p : Byte) (s : State) : State :=
  s.change l h (Request.clearCounts j p).code (State.clearCountsRequest j p)

def State.serveConfigRead (l : Link) (h : ServiceHead) (a n : Byte) (s : State) : State :=
  s.answer l h (Request.configRead a n).code (s.configReadResult a n)

def State.serveConfigWrite (l : Link) (h : ServiceHead) (a n : Byte) (data : Vector Word16 8)
    (s : State) : State :=
  s.change l h (Request.configWrite a n data).code fun s =>
    let (s, r) := s.configWriteRequest a n data
    (s, r, [])

def State.serveConfigApply (l : Link) (h : ServiceHead) (s : State) : State :=
  s.change l h Request.configApply.code fun s =>
    let (s, r) := s.configApplyRequest
    (s, r, [])

def State.serveConfigStore (l : Link) (h : ServiceHead) (s : State) : State :=
  s.change l h Request.configStore.code fun s =>
    let (s, r) := s.configStoreRequest
    (s, r, [])

/-- RESET: refused, or performed with no reply (R162). -/
def State.serveReset (l : Link) (h : ServiceHead) (s : State) : State :=
  if s.mayChange l h.role then
    match s.resetRefusal with
    | some r => s.replyService l h.address Request.reset.code r []
    | none => s.serviceReset
  else s.replyService l h.address Request.reset.code .notActive []

/-- Any request served. -/
def State.serveRequest (l : Link) (h : ServiceHead) (r : Request) (s : State) : State :=
  match r with
  | .lookUpLevel j p => s.serveLookUpLevel l h j p
  | .lookUpValve j => s.serveLookUpValve l h j
  | .seek j p => s.serveSeek l h j p
  | .walk since => s.serveWalk l h since
  | .retire j p => s.serveRetire l h j p
  | .restore j p => s.serveRestore l h j p
  | .clearCounts j p => s.serveClearCounts l h j p
  | .configRead a n => s.serveConfigRead l h a n
  | .configWrite a n data => s.serveConfigWrite l h a n data
  | .configApply => s.serveConfigApply l h
  | .configStore => s.serveConfigStore l h
  | .reset => s.serveReset l h

end Sys2Proof.Machine
end

