-- ==== Sys2Proof/Machine/Links.lean ====
section
/-! DEFINITION. The commands of the control links other than requests: ORDER_FRAME, REPLY_SENT,
LINK_SILENCE, CONTROL_LOSS, DISCARDED_FRAME_ARRIVES. -/

namespace Sys2Proof.Machine

open Sys2Proof

/-- ORDER_FRAME on link `l` (R142 to R150). -/
def execOrderFrame (t : Instant) (l : Link) (f : OrderFrame) (s : State) :
    Host.Outcome State Fault Refusal :=
  s.atTick t (State.receive l (orderBytes f) f.role (State.serveOrder l f))

/-- REPLY_SENT on link `l`: the reply on the line has been sent, and the next waiting reply goes out
(R151). -/
def execReplySent (t : Instant) (l : Link) (s : State) : Host.Outcome State Fault Refusal :=
  s.atTick t fun s =>
    match (s.link l).onLine with
    | none => s
    | some r =>
      { s.modLink l fun k => { k with onLine := k.waiting.head?, waiting := k.waiting.tail } with
        sent := .reply l r.bytes :: s.sent }

/-- LINK_SILENCE of link `l` (R145). -/
def execLinkSilence (t : Instant) (l : Link) (s : State) : Host.Outcome State Fault Refusal :=
  s.atTick t (State.judgeSilence l)

/-- The no-action limit is reached for the first time (R149). -/
def State.noActionReached (s : State) : Bool :=
  match s.working, s.lastTaken with
  | some im, some t =>
    !s.limitPassed && reached s.timebase (after t (Par.tnoact im * Config.tickUnit))
  | _, _ => false

/-- CONTROL_LOSS: handed when the group is deblocked; each limit at most once (R149). -/
def execControlLoss (t : Instant) (s : State) : Host.Outcome State Fault Refusal :=
  s.atTick t fun s =>
    if s.noActionReached then
      let s := { s with limitPassed := true }
      if s.group.mode = .blocked then s else (s.hand .controlLoss).settle
    else s

/-- Any bytes arrive as a frame on link `l`, and are received as the frame they spell, if one
(R142). -/
def State.receiveBytes (l : Link) (bytes : List Byte) (s : State) : State :=
  match readOrder bytes with
  | some f => s.receive l bytes f.role (State.serveOrder l f)
  | none =>
    match readService bytes with
    | some (h, r) => s.receive l bytes h.role (State.serveRequest l h r)
    | none => s.receive l bytes .standby id

/-- DISCARDED_FRAME_ARRIVES: any bytes as a frame on link `l`. The checks of R142 discard and count
it; bytes that pass every check are no discarded frame and are served as the frame they spell
(assumption 9). -/
def execDiscardedFrameArrives (t : Instant) (l : Link) (bytes : List Byte) (s : State) :
    Host.Outcome State Fault Refusal :=
  s.atTick t (State.receiveBytes l bytes)

end Sys2Proof.Machine
end

