-- ==== Sys2Proof/Machine/Service.lean ====
section
/-! DEFINITION. The commands of service requests and of the STORE: LOOK_UP_LEVEL, LOOK_UP_VALVE,
SEEK, WALK, RETIRE, RESTORE, CLEAR_COUNTS, CONFIG_READ, CONFIG_WRITE, CONFIG_APPLY, CONFIG_STORE,
RESET, STORE_COMPLETE, STORE_FAILED. -/

namespace Sys2Proof.Machine

open Sys2Proof

/-- LOOK_UP_LEVEL (R158). -/
def execLookUpLevel (t : Instant) (l : Link) (h : ServiceHead) (j p : Byte) (s : State) :
    Host.Outcome State Fault Refusal :=
  s.atTick t
    (State.receive l (serviceBytes h (.lookUpLevel j p)) h.role (State.serveLookUpLevel l h j p))

/-- LOOK_UP_VALVE (R158). -/
def execLookUpValve (t : Instant) (l : Link) (h : ServiceHead) (j : Byte) (s : State) :
    Host.Outcome State Fault Refusal :=
  s.atTick t
    (State.receive l (serviceBytes h (.lookUpValve j)) h.role (State.serveLookUpValve l h j))

/-- SEEK (R159). -/
def execSeek (t : Instant) (l : Link) (h : ServiceHead) (j p : Byte) (s : State) :
    Host.Outcome State Fault Refusal :=
  s.atTick t (State.receive l (serviceBytes h (.seek j p)) h.role (State.serveSeek l h j p))

/-- WALK (R159). -/
def execWalk (t : Instant) (l : Link) (h : ServiceHead) (since : BitVec 32) (s : State) :
    Host.Outcome State Fault Refusal :=
  s.atTick t (State.receive l (serviceBytes h (.walk since)) h.role (State.serveWalk l h since))

/-- RETIRE (R74, R75, R76). -/
def execRetire (t : Instant) (l : Link) (h : ServiceHead) (j p : Byte) (s : State) :
    Host.Outcome State Fault Refusal :=
  s.atTick t (State.receive l (serviceBytes h (.retire j p)) h.role (State.serveRetire l h j p))

/-- RESTORE (R74, R77, R78). -/
def execRestore (t : Instant) (l : Link) (h : ServiceHead) (j p : Byte) (s : State) :
    Host.Outcome State Fault Refusal :=
  s.atTick t (State.receive l (serviceBytes h (.restore j p)) h.role (State.serveRestore l h j p))

/-- CLEAR_COUNTS (R74, R79). -/
def execClearCounts (t : Instant) (l : Link) (h : ServiceHead) (j p : Byte) (s : State) :
    Host.Outcome State Fault Refusal :=
  s.atTick t
    (State.receive l (serviceBytes h (.clearCounts j p)) h.role (State.serveClearCounts l h j p))

/-- CONFIG_READ (R161). -/
def execConfigRead (t : Instant) (l : Link) (h : ServiceHead) (a n : Byte) (s : State) :
    Host.Outcome State Fault Refusal :=
  s.atTick t
    (State.receive l (serviceBytes h (.configRead a n)) h.role (State.serveConfigRead l h a n))

/-- CONFIG_WRITE (R161). -/
def execConfigWrite (t : Instant) (l : Link) (h : ServiceHead) (a n : Byte)
    (data : Vector Word16 8) (s : State) : Host.Outcome State Fault Refusal :=
  s.atTick t
    (State.receive l (serviceBytes h (.configWrite a n data)) h.role
      (State.serveConfigWrite l h a n data))

/-- CONFIG_APPLY (R162, R165). -/
def execConfigApply (t : Instant) (l : Link) (h : ServiceHead) (s : State) :
    Host.Outcome State Fault Refusal :=
  s.atTick t (State.receive l (serviceBytes h .configApply) h.role (State.serveConfigApply l h))

/-- CONFIG_STORE (R162, R166). -/
def execConfigStore (t : Instant) (l : Link) (h : ServiceHead) (s : State) :
    Host.Outcome State Fault Refusal :=
  s.atTick t (State.receive l (serviceBytes h .configStore) h.role (State.serveConfigStore l h))

/-- RESET (R162, R167). -/
def execServiceReset (t : Instant) (l : Link) (h : ServiceHead) (s : State) :
    Host.Outcome State Fault Refusal :=
  s.atTick t (State.receive l (serviceBytes h .reset) h.role (State.serveReset l h))

/-- STORE_COMPLETE within 100 ms: the memory has taken the 64 words (R166, R157). -/
def execStoreComplete (t : Instant) (s : State) : Host.Outcome State Fault Refusal :=
  s.atTick t fun s =>
    match s.store with
    | some st =>
      if span st.began t ≤ Config.storeSpan then
        { s with store := none, stored := .stored, sent := .memory st.words :: s.sent }
      else s
    | none => s

/-- STORE_FAILED: at a write error, or when the 100 ms have passed (R166, R157). -/
def execStoreFailed (t : Instant) (why : StoreFault) (s : State) :
    Host.Outcome State Fault Refusal :=
  s.atTick t fun s =>
    match s.store with
    | some st =>
      if why = .writeError ∨ reached t (after st.began Config.storeSpan) then
        { s with store := none, stored := .failed }
      else s
    | none => s

end Sys2Proof.Machine
end

