-- ==== Sys2Proof/Machine/Startup.lean ====
section
/-! DEFINITION. The commands of resets and start-up: POWER_ON_RESET, RESET_PIN, RESET_END,
LOADING_READ_DONE, LOADING_TIMEOUT. -/

namespace Sys2Proof.Machine

open Sys2Proof

/-- POWER_ON_RESET: the reset takes effect whatever the state, until the supply is stable (R167). -/
def execPowerOnReset (s : State) : Host.Outcome State Fault Refusal :=
  .next (s.holdInReset .power (.addPowerOn s.heldBy))

/-- RESET_PIN: the 40th consecutive low sample, whatever the state; the part is held for as long as the
pin stays low (R167). -/
def execResetPin (s : State) : Host.Outcome State Fault Refusal :=
  .next (s.holdInReset .pin (.addPin s.heldBy))

/-- RESET_END: the stable supply ends a power-on reset and the first high sample a pin reset; when no
reset is left in effect the unit enters LOADING (R164, R167). So a low pin holds the part past the stable
supply; that an unstable supply also holds it past the high pin is the model's choice (assumption 15). -/
def execResetEnd (s : State) (e : ResetEnd := .pinHigh) : Host.Outcome State Fault Refusal :=
  match s.unit with
  | .held h =>
    match h.heldBy.after e with
    | none => .next (s.beginLoading h.cause)
    | some b => .next { s with unit := .held { h with heldBy := b } }
  | _ => .next s

/-- LOADING_READ_DONE within 500,000 ticks: the staging image receives the words, and a valid image
enters READY, an invalid one CONFIG_FAULT (R164). -/
def execLoadingReadDone (t : Instant) (words : Image) (s : State) :
    Host.Outcome State Fault Refusal :=
  s.atTick t fun s =>
    match s.unit with
    | .loading began =>
      if span began t ≤ Config.loadingSpan then
        let s := { s with staging := words }
        if imageValid words then s.enterReady words else { s with unit := .configFault }
      else s
    | _ => s

/-- LOADING_TIMEOUT: the read is abandoned at 500,000 ticks (R164). -/
def execLoadingTimeout (t : Instant) (s : State) : Host.Outcome State Fault Refusal :=
  s.atTick t fun s =>
    match s.unit with
    | .loading began =>
      if reached t (after began Config.loadingSpan) then
        { s with unit := .configFault, staging := Vector.replicate Config.imageWords 0 }
      else s
    | _ => s

end Sys2Proof.Machine
end

