-- ==== Sys2Proof/Machine/Synchronism.lean ====
section
/-! DEFINITION. The commands of the Phase Tracker: CROSSING_CANDIDATE, CANDIDATE_DROPPED,
CROSSING_CONFIRMED, DETECTOR_REARM, DEADLINE_REACHED, LOW_RUN_START, LOW_RUN_BROKEN. -/

namespace Sys2Proof.Machine

open Sys2Proof

/-! ## The crossing detector -/

/-- The detector set, and the input seen at a level. -/
def State.setDetector (s : State) (d : Detector) (high : Bool) : State :=
  { s with tracker := { s.tracker with detector := d }, refHigh := high }

/-- A change of the reference input to the level `high` at tick `t`. Outside READY the detector does
not sample (R1, R16) and only the input moves, in reset too; in READY the detector acts by `act`. -/
def State.inputMoves (s : State) (t : Instant) (high : Bool) (act : Image → State → State) :
    Host.Outcome State Fault Refusal :=
  match s.unit with
  | .held _ => .next { s with refHigh := high }
  | .ready im => s.atTick t (act im)
  | _ => s.atTick t fun s => { s with refHigh := high }

/-- The input is high in DISARMED at one of the ticks tl … tl + TCONF: tl is absent (R3). A rise at tl
itself is one taken after the entry to READY of the same tick (R1, R165). -/
def State.breakLowRun (im : Image) (t : Instant) (s : State) : State :=
  match s.tracker.detector with
  | .disarmed (some tl) =>
    if span tl t ≤ Par.tconf im then s.setDetector (.disarmed none) true else s
  | _ => s

/-- The first low sample in DISARMED after a high one: tl becomes that tick (R3). -/
def State.startLowRun (t : Instant) (s : State) : State :=
  match s.tracker.detector with
  | .disarmed none => s.setDetector (.disarmed (some t)) false
  | _ => s

/-- CROSSING_CANDIDATE: in ARMED a rising transition at `t` takes the detector to CONFIRMING (R2). A
rise that finds DISARMED, as after an APPLY of the same tick, breaks the low run (R3, R165,
assumption 7). -/
def execCrossingCandidate (t : Instant) (s : State) : Host.Outcome State Fault Refusal :=
  s.inputMoves t true fun im s =>
    match s.tracker.detector with
    | .armed => s.setDetector (.confirming t) true
    | _ => s.breakLowRun im t

/-- CANDIDATE_DROPPED: a low sample at one of the ticks t0 + 1 … t0 + TCONF (R2). A fall that finds
DISARMED, as after an APPLY of the same tick, starts a low run (R3, R165, assumption 7). -/
def execCandidateDropped (t : Instant) (s : State) : Host.Outcome State Fault Refusal :=
  s.inputMoves t false fun im s =>
    match s.tracker.detector with
    | .confirming t0 =>
      if inRange 1 (Par.tconf im) (span t0 t) then s.setDetector .armed false else s
    | _ => s.startLowRun t

/-- LOW_RUN_START: in DISARMED with no low run, the first low sample sets tl (R3). -/
def execLowRunStart (t : Instant) (s : State) : Host.Outcome State Fault Refusal :=
  s.inputMoves t false fun _ s => s.startLowRun t

/-- LOW_RUN_BROKEN: a high sample before the low run has lasted TCONF ticks makes tl absent (R3). -/
def execLowRunBroken (t : Instant) (s : State) : Host.Outcome State Fault Refusal :=
  s.inputMoves t true fun im s => s.breakLowRun im t

/-- DETECTOR_REARM: the input has been low for TCONF ticks from tl (R3). -/
def execDetectorRearm (t : Instant) (s : State) : Host.Outcome State Fault Refusal :=
  s.atTick t fun s =>
    match s.working, s.tracker.detector with
    | some im, .disarmed (some tl) =>
      if reached t (after tl (Par.tconf im)) then s.setDetector .armed false else s
    | _, _ => s

/-! ## The sync machine -/

/-- M lies in the accept window around Pnom (R4). -/
def inWindow (pnom m : Nat) : Bool :=
  decide (m ≤ pnom + pnom / 12) && decide (pnom ≤ m + pnom / 12)

/-- The measured interval of a crossing, none before the first reference (R4). -/
def Tracker.interval (tr : Tracker) (t0 : Instant) : Option Nat := tr.tref.map fun r => span r t0

/-- The period filter: P plus D/8 rounded to the nearest, halves away from zero, D = M − P (R5). -/
def periodFilter (p m : Nat) : Nat :=
  if p ≤ m then p + (m - p + 4) / 8 else p - (p - m + 4) / 8

/-- The deadline that follows from a reference (R6). -/
def deadlineFrom (tref : Instant) (p : Nat) : Instant := after tref (p + p / 8)

/-- The tracker with its last reference at `tref` in sync state `sync` at period `p`: the deadline is
kept outside SEEKING (R6). -/
def Tracker.refer (tr : Tracker) (tref : Instant) (sync : SyncState) (p : Nat) : Tracker :=
  { tr with sync := sync, period := p, tref := some tref
            deadline := if sync = .seeking then none else some (deadlineFrom tref p) }

/-- The entry to LOCKED at a reference: the run counts and the holdover count are 0 (R10). -/
def Tracker.lock (tr : Tracker) (tref : Instant) (p : Nat) : Tracker :=
  { tr.refer tref .locked p with goodRun := 0, relockRun := 0, holdover := 0 }

/-- A crossing that is discarded, in LOCKED or HOLDOVER; in HOLDOVER it breaks the relock run (R11,
R12). -/
def State.discardCrossing (s : State) : State :=
  { s with tracker := { s.tracker with
      disturbances := bump Config.count16 s.tracker.disturbances
      relockRun := if s.tracker.sync = SyncState.holdover then 0 else s.tracker.relockRun } }.post
    .sync syncDisturbance

/-- A crossing at `t0` that becomes a reference and takes the tracker to LOCKED (R10, R12, R13). -/
def State.lockAt (im : Image) (t0 : Instant) (p : Nat) (s : State) : State :=
  ({ s with tracker := s.tracker.lock t0 p }.post .sync syncLocked).handReference im t0

/-- A crossing at `t0` that becomes a reference and leaves the sync state as it is, the tracker's
counts first changed by `f`. -/
def State.referAt (im : Image) (t0 : Instant) (p : Nat) (f : Tracker → Tracker) (s : State) :
    State :=
  { s with tracker := (f s.tracker).refer t0 s.tracker.sync p }.handReference im t0

/-- The sync machine judges a confirmed crossing with instant `t0` (R4, R5, R10 to R13). -/
def State.judgeCrossing (im : Image) (t0 : Instant) (s : State) : State :=
  let tr := s.tracker
  match tr.interval t0 with
  | some m =>
    if inWindow (Par.pnom im) m then
      let p := periodFilter tr.period m
      match tr.sync with
      | .locked => s.referAt im t0 p id
      | .holdover =>
        if 2 ≤ tr.relockRun + 1 then s.lockAt im t0 p
        else s.referAt im t0 p fun tr => { tr with relockRun := tr.relockRun + 1 }
      | .seeking | .lost =>
        if 4 ≤ tr.goodRun + 1 then s.lockAt im t0 p
        else s.referAt im t0 p fun tr => { tr with goodRun := tr.goodRun + 1 }
    else
      match tr.sync with
      | .locked | .holdover => s.discardCrossing
      | .seeking | .lost => s.referAt im t0 tr.period fun tr => { tr with goodRun := 0 }
  | none =>
    match tr.sync with
    | .locked | .holdover => s.discardCrossing
    | .seeking | .lost => s.referAt im t0 tr.period fun tr => { tr with goodRun := 0 }

/-- CROSSING_CONFIRMED: the candidate has been high for TCONF ticks; the detector becomes DISARMED
with tl absent and the crossing is judged (R2, R4). -/
def execCrossingConfirmed (t : Instant) (s : State) : Host.Outcome State Fault Refusal :=
  s.atTick t fun s =>
    match s.working, s.tracker.detector with
    | some im, .confirming t0 =>
      if reached t (after t0 (Par.tconf im)) then
        (s.setDetector (.disarmed none) true).judgeCrossing im t0
      else s
    | _, _ => s

/-- What a synthetic reference at `z` does to the sync state and its counts (R11, R12, R13). -/
def State.synthetic (im : Image) (z : Instant) (s : State) : State :=
  let tr := s.tracker
  match tr.sync with
  | .seeking => s
  | .locked =>
    { s with tracker :=
        { tr.refer z .holdover tr.period with holdover := 1, relockRun := 0 } }.post
      .sync syncHoldover
  | .holdover =>
    let n := min 16 (tr.holdover + 1)
    if Par.holdmax im < n then
      ({ s with tracker :=
          { tr.refer z .lost tr.period with holdover := n, relockRun := 0, goodRun := 0 } }.post
        .sync syncLost).hand .syncLost
    else
      { s with tracker := { tr.refer z .holdover tr.period with holdover := n, relockRun := 0 } }
  | .lost => { s with tracker := { tr.refer z .lost tr.period with goodRun := 0 } }

/-- DEADLINE_REACHED: a synthetic reference at Tref + P (R6). In SEEKING there is no deadline. -/
def execDeadlineReached (t : Instant) (s : State) : Host.Outcome State Fault Refusal :=
  s.atTick t fun s =>
    match s.working, s.tracker.tref, s.tracker.deadline with
    | some im, some r, some d =>
      if s.tracker.sync ≠ .seeking ∧ reached t d then
        let z := after r s.tracker.period
        (s.synthetic im z).handReference im z
      else s
    | _, _, _ => s

end Sys2Proof.Machine
end

