-- ==== Sys2Proof/Machine/Dispatch.lean ====
section
/-! DEFINITION. The meaning of every command: one arm per row of spec/opcode_table.json. -/

namespace Sys2Proof.Machine
open Sys2Proof

def exec (i : Instr) (s : State) : Host.Outcome State Fault Refusal :=
  match i with
  | .powerOnReset => Sys2Proof.Machine.execPowerOnReset s
  | .resetPin => Sys2Proof.Machine.execResetPin s
  | .resetEnd event => Sys2Proof.Machine.execResetEnd s event
  | .loadingReadDone t words => Sys2Proof.Machine.execLoadingReadDone t words s
  | .loadingTimeout t => Sys2Proof.Machine.execLoadingTimeout t s
  | .crossingCandidate t => Sys2Proof.Machine.execCrossingCandidate t s
  | .candidateDropped t => Sys2Proof.Machine.execCandidateDropped t s
  | .crossingConfirmed t => Sys2Proof.Machine.execCrossingConfirmed t s
  | .detectorRearm t => Sys2Proof.Machine.execDetectorRearm t s
  | .deadlineReached t => Sys2Proof.Machine.execDeadlineReached t s
  | .takeUp t j => Sys2Proof.Machine.execTakeUp t j s
  | .firingInstant t j => Sys2Proof.Machine.execFiringInstant t j s
  | .forcedFiring t j => Sys2Proof.Machine.execForcedFiring t j s
  | .extinctionDeadline t j => Sys2Proof.Machine.execExtinctionDeadline t j s
  | .pulseReport t j body => Sys2Proof.Machine.execPulseReport t j body s
  | .oiuIdle t j body => Sys2Proof.Machine.execOiuIdle t j body s
  | .channelDown t j => Sys2Proof.Machine.execChannelDown t j s
  | .vc12Idle t j => Sys2Proof.Machine.execVc12Idle t j s
  | .bypassGating t => Sys2Proof.Machine.execBypassGating t s
  | .linkSilence t l => Sys2Proof.Machine.execLinkSilence t l s
  | .controlLoss t => Sys2Proof.Machine.execControlLoss t s
  | .orderFrame t l f => Sys2Proof.Machine.execOrderFrame t l f s
  | .replySent t l => Sys2Proof.Machine.execReplySent t l s
  | .lookUpLevel t l h j p => Sys2Proof.Machine.execLookUpLevel t l h j p s
  | .lookUpValve t l h j => Sys2Proof.Machine.execLookUpValve t l h j s
  | .seek t l h j p => Sys2Proof.Machine.execSeek t l h j p s
  | .walk t l h since => Sys2Proof.Machine.execWalk t l h since s
  | .retire t l h j p => Sys2Proof.Machine.execRetire t l h j p s
  | .restore t l h j p => Sys2Proof.Machine.execRestore t l h j p s
  | .clearCounts t l h j p => Sys2Proof.Machine.execClearCounts t l h j p s
  | .configRead t l h a n => Sys2Proof.Machine.execConfigRead t l h a n s
  | .configWrite t l h a n data => Sys2Proof.Machine.execConfigWrite t l h a n data s
  | .configApply t l h => Sys2Proof.Machine.execConfigApply t l h s
  | .configStore t l h => Sys2Proof.Machine.execConfigStore t l h s
  | .serviceReset t l h => Sys2Proof.Machine.execServiceReset t l h s
  | .storeComplete t => Sys2Proof.Machine.execStoreComplete t s
  | .storeFailed t why => Sys2Proof.Machine.execStoreFailed t why s
  | .lowRunStart t => Sys2Proof.Machine.execLowRunStart t s
  | .lowRunBroken t => Sys2Proof.Machine.execLowRunBroken t s
  | .messageOfUnknownKind t j msg => Sys2Proof.Machine.execMessageOfUnknownKind t j msg s
  | .discardedFrameArrives t l bytes => Sys2Proof.Machine.execDiscardedFrameArrives t l bytes s

end Sys2Proof.Machine
end

