-- ==== Sys2Proof/Machine/Step.lean ====
section
/-! DEFINITION. One step of the block: the command at the front of the queue is taken, and on an
empty queue one tick of the timebase passes. -/

namespace Sys2Proof.Machine

open Sys2Proof

/-- One tick with no command: the free-running timebase goes up by 1, and stands at 0 while a reset
is in effect (00_scope.md, Time; R167; assumption 2). -/
def State.tick (s : State) : State :=
  match s.unit with
  | .held _ => s
  | _ => { s with timebase := s.timebase + 1 }

/-- One step: the front command's `exec` on the state with the queue's rest, or one tick. -/
def step (s : State) : Host.Outcome State Fault Refusal :=
  match s.pending with
  | [] => .next s.tick
  | c :: rest => exec c { s with pending := rest }

/-- The state with the command that a table word spells put at the front of its queue; unchanged
where the word spells none. -/
def State.withFetchWord (s : State) (nbits w : Nat) : State :=
  match decodeTableWord nbits w with
  | some c => { s with pending := c :: s.pending }
  | none => s

end Sys2Proof.Machine
end

