-- ==== Sys2Proof/Safety.lean ====
section
/-! DEFINITION. The words in which the statements speak: the state in which a command is taken, what
a command leaves alone, intact frames, what a firing leaves behind; and the invariants of a safe part,
which every step keeps. -/

namespace Sys2Proof.Machine

open Sys2Proof

/-! ## The state in which a command is taken -/

/-- No reset is in effect (R167). -/
def State.live (s : State) : Prop := ∀ c, s.unit ≠ .held c

/-- The state at tick `t`, before anything else of the command taken then has come about. -/
def State.atInstant (s : State) (t : Instant) : State := { s with timebase := t, handed := [] }

/-- The level of the reference input after a command: the four input rows move it. -/
def inputAfter (i : Instr) (high : Bool) : Bool :=
  match i with
  | .crossingCandidate _ | .lowRunBroken _ => true
  | .candidateDropped _ | .lowRunStart _ => false
  | _ => high

/-! ## Values after a reset, spelled out -/

/-- A valve after a reset (R35, R51, R81, R107, R121, R141). -/
def blankValve : ValveRecord where
  schedule :=
    { zeros := [], zero := 0, alphaEff := 0, fireAt := none, waitLength := 0, expiry := none
      deadline := none, slips := 0, pulledIn := 0 }
  monitor :=
    { tally := { unproven := 0, sound := 0, suspect := 0, dark := 0, faulted := 0, retired := 0 }
      margin := .atLimit, phase := .blocking, indicated := 0, distinctPfi := 0, blockBack := none
      lastFire := none, scheduled := 0, late := 0, forced := 0, refire := 0, protective := 0 }
  lastGamma := none
  commFailures := 0
  bypasses := 0
  channel :=
    { up := false, run := 0, lastMessage := none, lastSend := none, errors := 0, noiseCycle := 0
      noiseTotal := 0 }
  levels := []

/-- A control link after a reset (R154, R159). -/
def blankLink : LinkState where
  lastValid := none
  role := .standby
  silent := true
  errors := 0
  foreign := 0
  onLine := none
  waiting := []
  attention := Vector.replicate 16 0
  cursor := { valve := 0, position := 1 }

/-- The part after a reset in unit state `unit` with start cause `cause` (R16, R35, R51, R81, R107,
R121, R141, R154, R157, R167, R168); what no reset touches is that of `s` (assumption 3). -/
def blankState (s : State) (unit : UnitState) (cause : StartCause) : State where
  timebase := 0
  unit := unit
  startCause := cause
  staging := Vector.replicate 64 0
  refHigh := s.refHigh
  tracker :=
    { detector := .disarmed none, sync := .seeking, period := 200000, tref := none, deadline := none
      cycle := 0, goodRun := 0, relockRun := 0, holdover := 0, disturbances := 0 }
  counter := 0
  valves := Vector.replicate 12 blankValve
  guard := { advance := 0, mark := false, failCycles := 0, lowest := none, reportedLow := none }
  group :=
    { mode := .blocked, origin := none
      trips := { redundancy := false, channel := false, syncLost := false, persistentCf := false
                 controlLoss := false }
      refusal := none, lastUpperY := none, lastUpperD := none, legs := none, gatingExpiry := none }
  linkA := blankLink
  linkB := blankLink
  sel := .a
  order := { alpha := 0, requested := .block }
  lastTaken := none
  limitPassed := false
  store := none
  stored := .none
  sent := s.sent
  handed := []
  choices := s.choices
  pending := s.pending

/-! ## The validity of an image, spelled out (R163) -/

/-- Word `k` of an image. -/
def wordOf (im : Image) (k : Nat) : Nat := (im.toList.getD k 0).toNat

/-- The three words of valve `j`: Nv in 4 … 80, Rv in 0 … 16 and at most Nv − 4, PTv in 1 … Nv. -/
def valveWordsFit (im : Image) (j : Valve) : Prop :=
  let nv := wordOf im (4 + 3 * j.val)
  let rv := wordOf im (5 + 3 * j.val)
  let ptv := wordOf im (6 + 3 * j.val)
  4 ≤ nv ∧ nv ≤ 80 ∧ rv ≤ 16 ∧ rv + 4 ≤ nv ∧ 1 ≤ ptv ∧ ptv ≤ nv

/-- Every parameter is read from its word of the image (The image), the nominal period from NOMF. -/
def parametersRead (im : Image) : Prop :=
  let w := wordOf im
  Par.gaddr im = w 1 ∧ Par.nomf im = w 2 ∧ Par.phi0 im = w 3
  ∧ (∀ j : Valve, Par.nv j im = w (4 + 3 * j.val) ∧ Par.rv j im = w (5 + 3 * j.val)
      ∧ Par.ptv j im = w (6 + 3 * j.val))
  ∧ Par.amin im = w 40 ∧ Par.amax im = w 41 ∧ Par.gmin im = w 42 ∧ Par.advmax im = w 43
  ∧ Par.advdec im = w 44 ∧ Par.guard im = w 45 ∧ Par.msus im = w 46 ∧ Par.mdark im = w 47
  ∧ Par.qwait im = w 48 ∧ Par.refsp im = w 49 ∧ Par.byptrip im = w 50 ∧ Par.cflim im = w 51
  ∧ Par.tconf im = w 52 ∧ Par.holdmax im = w 53 ∧ Par.tsil im = w 54 ∧ Par.tnoact im = w 55
  ∧ Par.wil im = w 56 ∧ Par.wih im = w 57 ∧ Par.gl im = w 58 ∧ Par.gh im = w 59
  ∧ Par.wll im = w 60 ∧ Par.wlh im = w 61 ∧ Par.noiselim im = w 62
  ∧ Par.pnom im = (if w 2 = 60 then 166667 else 200000)

/-- The ranges of the words of the group, word by word in the order of the table of The image. -/
def groupWordsFit (im : Image) : Prop :=
  let w := wordOf im
  let within (lo hi : Nat) (k : Nat) := lo ≤ w k ∧ w k ≤ hi
  within 1 62 1 ∧ (w 2 = 50 ∨ w 2 = 60) ∧ w 3 ≤ 35999
  ∧ within 200 3000 40 ∧ within 15000 17000 41 ∧ within 500 3000 42 ∧ w 43 ≤ 3000
  ∧ within 1 200 44 ∧ w 45 ≤ 1 ∧ within 1 7 46 ∧ within (w 46 + 1) 15 47 ∧ w 48 ≤ 1000
  ∧ within 200 5000 49 ∧ w 50 ≤ 1 ∧ within 1 15 51 ∧ within 100 5000 52 ∧ within 1 15 53
  ∧ within 5 100 54 ∧ within 10 1000 55
  ∧ (∀ k, 56 ≤ k → k ≤ 62 → within 1 255 k)
  ∧ w 56 ≤ w 57 ∧ w 57 < w 60 ∧ w 60 ≤ w 61 ∧ w 58 ≤ w 59

/-! ## Attention and frames of reference -/

/-- The pending word of a source on a link (R152). -/
def State.word (s : State) (l : Link) (src : Source) : BitVec 12 := (s.link l).pendingWord src

/-- From `s` to `u`, `bits` have joined the pending word of `src` on both links (R152). -/
def Posted (s u : State) (src : Source) (bits : BitVec 12) : Prop :=
  ∀ l, u.word l src = s.word l src ||| bits

/-- The words of every source but `src` are as they were. -/
def WordsKept (s u : State) (src : Source) : Prop :=
  ∀ l src', src' ≠ src → u.word l src' = s.word l src'

/-- Both links are as they were but for their attention sets. -/
def LinksKept (s u : State) : Prop :=
  ∀ l, u.link l = { s.link l with attention := (u.link l).attention }

/-- What no command acting on valves, guard and group touches: the unit, the images, the input, the
selection and the active order, the STORE, the waiting commands, and of the links all but the
attention sets. -/
def RestKept (s u : State) : Prop :=
  u = { s with
    tracker := u.tracker, counter := u.counter, valves := u.valves, guard := u.guard
    group := u.group, linkA := u.linkA, linkB := u.linkB, sent := u.sent, handed := u.handed
    choices := u.choices }
  ∧ LinksKept s u

/-! ## Intact frames -/

/-- The CRC of an ORDER frame is that of its first four bytes (R142). -/
def orderIntact (f : OrderFrame) : Prop :=
  f.crc = crc16 ((orderBytes f).take 4)

/-- The CRC of a SERVICE frame is that of the bytes before it (R142). -/
def serviceIntact (h : ServiceHead) (r : Request) : Prop :=
  h.crc = crc16 ((serviceBytes h r).take (2 + r.args.length))

/-- The command of a request on link `l` at tick `t`. -/
def Request.command (r : Request) (t : Instant) (l : Link) (h : ServiceHead) : Instr :=
  match r with
  | .lookUpLevel j p => .lookUpLevel t l h j p
  | .lookUpValve j => .lookUpValve t l h j
  | .seek j p => .seek t l h j p
  | .walk since => .walk t l h since
  | .retire j p => .retire t l h j p
  | .restore j p => .restore t l h j p
  | .clearCounts j p => .clearCounts t l h j p
  | .configRead a n => .configRead t l h a n
  | .configWrite a n data => .configWrite t l h a n data
  | .configApply => .configApply t l h
  | .configStore => .configStore t l h
  | .reset => .serviceReset t l h

/-- The changing requests (R156). -/
def Request.changing : Request → Bool
  | .lookUpLevel .. | .lookUpValve .. | .seek .. | .walk .. | .configRead .. => false
  | .retire .. | .restore .. | .clearCounts .. | .configWrite .. | .configApply | .configStore
  | .reset => true

/-- The address passes the check of R143: in READY it is GADDR, elsewhere no check is made. -/
def State.addressed (s : State) (a : BitVec 6) : Prop :=
  ∀ im, s.unit = .ready im → a.toNat = Par.gaddr im

/-- The state after a valid frame claiming `r` has acted on link `l` and met the switch rule (R144,
R146). -/
def State.heard (s : State) (t : Instant) (l : Link) (r : Role) : State :=
  ((s.atInstant t).hearLink l r).judgeSelection l r

/-- A link that is not silent has had no valid frame for `n` ticks at instant `t` (R145). -/
def LinkState.overdue (k : LinkState) (t : Instant) (n : Nat) : Bool :=
  match k.silent, k.lastValid with
  | false, some v => reached t (after v n)
  | _, _ => false

/-! ## Firings -/

/-- The count of a kind of firing in a valve record (R84, R105). -/
def ValveRecord.firingCount (v : ValveRecord) : FireKind → Nat
  | .scheduled => v.monitor.scheduled
  | .late => v.monitor.late
  | .forced => v.monitor.forced
  | .pulledIn => v.schedule.pulledIn
  | .refire => v.monitor.refire
  | .protective => v.monitor.protective
  | .bypass => v.bypasses

/-- The FIRE message of valve `j` at instant `t` with the mask of the levels as `s` holds them
(R38, R39). -/
def State.fireSent (s : State) (t : Instant) (j : Valve) : Sent :=
  .channel j (fireMessage t (fireMask (s.valve j).levels))

/-- Valve `j` has been fired at `t` as kind `k` between `s` and `u` (R38, R88): its FIRE message has
gone out, it conducts, and its last fire instant, its last-send time and its firing count are
set. -/
def Fired (s u : State) (t : Instant) (k : FireKind) (j : Valve) : Prop :=
  (∃ later earlier, u.sent = later ++ s.fireSent t j :: (earlier ++ s.sent))
  ∧ (u.valve j).monitor.lastFire = some t ∧ (u.valve j).channel.lastSend = some t
  ∧ (u.valve j).monitor.phase = .conducting
  ∧ (u.valve j).firingCount k = min 65535 ((s.valve j).firingCount k + 1)

/-- Valve `j` has no unissued firing (R29, R30). -/
def State.nothingUnissued (s : State) (j : Valve) : Prop :=
  (s.valve j).schedule.fireAt = none ∧ (s.valve j).schedule.expiry = none

/-! ## Reports -/

/-- The class of a report as the Pulse Classifier gives it (R47, R49). -/
def ReportClass.pulse : ReportClass → PulseClass
  | .ind => .ind
  | .pfi => .pfi
  | .lft => .lft

/-- Valve `j` stands in the scheduled or in the gated regime (Valve phases). -/
def State.outsideFreeRegime (s : State) (j : Valve) : Prop :=
  s.group.mode = .running ∨ ∃ g, s.group.legs = some g ∧ j ∈ g.valves

/-- The IND and PFI reports of valve `j` are marked CONDUCTION (R96). -/
def State.marksConduction (s : State) (j : Valve) : Prop :=
  (s.valve j).monitor.phase = .conducting ∧ s.outsideFreeRegime j

/-- A report of class `cls` on record `l` of valve `j` fires nothing PROTECTIVE: it is no PFI, or it
newly sets no PFI flag, or the distinct-PFI count stays below PTv, or the valve conducts (R102). -/
def ValveRecord.noProtective (v : ValveRecord) (ptv : Nat) (l : Level) (cls : ReportClass) : Prop :=
  cls = .pfi → l.pfi = true ∨ v.monitor.distinctPfi + 1 < ptv ∨ v.monitor.phase = .conducting

/-- The record of a counting level after an IND or a PFI stamped `b`, its indicated flag then being
`flag` (R62, R63). -/
def Level.afterIndication (l : Level) (cls : ReportClass) (b : Instant) (flag : Bool) : Level :=
  { l with
    lastReport := some (cls, b), indicated := flag, pfi := l.pfi || decide (cls = .pfi)
    pfiCount := if cls = .pfi then min 255 (l.pfiCount + 1) else l.pfiCount }

/-- The valve's counts after an IND or a PFI of the level that was `l`, the indicated count then being
`n` (R63, R98). -/
def Monitor.afterIndication (m : Monitor) (l : Level) (cls : ReportClass) (n : Nat) : Monitor :=
  { m with
    indicated := n
    distinctPfi := m.distinctPfi + (if cls = .pfi ∧ l.pfi = false then 1 else 0) }

/-! ## Deblock preconditions (R126) -/

/-- Preconditions 2, 4 and 5 of R126, which the blocks outside the controller hold: sync LOCKED, every
channel UP, every valve within its allowance. -/
def State.blocksFit (s : State) : Prop :=
  s.tracker.sync = .locked ∧ (∀ j, (s.valve j).channel.up = true)
    ∧ ∀ j, (s.valve j).failed + (s.valve j).unproven ≤ s.par (Par.rv j)

/-- The five preconditions. -/
def State.fit (s : State) : Prop := s.isReady = true ∧ s.group.trips = {} ∧ s.blocksFit

/-! ## Invariants -/

/-- The working image is valid, outside READY every block holds its values after a reset, and a STORE
writes the working image (R16, R35, R51, R81, R107, R121, R123, R141, R163, R164, R166). -/
structure State.UnitInv (s : State) : Prop where
  valid : ∀ im, s.unit = .ready im → imageValid im = true
  tracker : s.working = none → s.tracker = {}
  counter : s.working = none → s.counter = 0
  valves : s.working = none → s.valves = Vector.replicate Config.valveCount {}
  guard : s.working = none → s.guard = {}
  group : s.working = none → s.group = { refusal := s.group.refusal }
  store : ∀ st, s.store = some st → s.unit = .ready st.words

/-- In READY the period estimate lies in the accept window, the counts of the sync machine in their
ranges, and the deadline is that of R6 (R5, R6, the Sync states). -/
structure State.TrackerInv (s : State) : Prop where
  period : ∀ im, s.unit = .ready im →
    s.tracker.period ≤ Par.pnom im + Par.pnom im / 12
      ∧ Par.pnom im ≤ s.tracker.period + Par.pnom im / 12
  goodRun : s.tracker.goodRun ≤ 3
  relockRun : s.tracker.relockRun ≤ 1
  holdover : ∀ im, s.unit = .ready im → s.tracker.holdover ≤ Par.holdmax im + 1
  holding : ∀ im, s.unit = .ready im → s.tracker.sync = .holdover →
    s.tracker.holdover ≤ Par.holdmax im
  noDeadline : s.tracker.sync = .seeking → s.tracker.deadline = none
  deadline : s.tracker.sync ≠ .seeking →
    ∃ r, s.tracker.tref = some r
      ∧ s.tracker.deadline = some (after r (s.tracker.period + s.tracker.period / 8))

/-- The parts of the Group Mode Controller are present in their modes, and schedules in RUNNING alone
(R22, R30, R34, and the items of 07_group_modes_blocking_and_bypass.md). -/
structure State.ModeInv (s : State) : Prop where
  origin : s.group.origin.isSome ↔ s.group.mode = .deblocking
  legs : s.group.legs.isSome ↔ (s.group.mode = .bypass ∨ s.group.origin = some .fromBypass)
  gating : s.group.gatingExpiry.isSome ↔ s.group.legs.isSome
  uppers : s.group.mode = .blocked → s.group.lastUpperY = none ∧ s.group.lastUpperD = none
  zeros : ∀ j, (s.valve j).schedule.zeros.length ≤ 2
  expiry : ∀ j, (s.valve j).schedule.expiry.isSome → (s.valve j).schedule.fireAt.isSome
  fireAt : ∀ j, (s.valve j).schedule.fireAt.isSome → (s.valve j).schedule.deadline.isSome
  cancelled : s.group.mode ≠ .running → ∀ j, (s.valve j).schedule.deadline = none

/-- A γ, where there is one, is at most 30,000 cdeg (R109). -/
def gammaInRange (g : Option Nat) : Prop := ∀ n, g = some n → n ≤ 30000

/-- In READY the guard advance lies within 0 … ADVMAX and every latched angle within AMIN … AMAX; the
counts and margins of the guard stay in their ranges (R25, R109, R112). -/
structure State.GuardInv (s : State) : Prop where
  advance : ∀ im, s.unit = .ready im → s.guard.advance ≤ Par.advmax im
  failCycles : s.guard.failCycles ≤ 255
  lowest : gammaInRange s.guard.lowest
  reportedLow : gammaInRange s.guard.reportedLow
  lastGamma : ∀ j, gammaInRange (s.valve j).lastGamma
  commFailures : ∀ j, (s.valve j).commFailures ≤ 65535
  alphaEff : ∀ im, s.unit = .ready im → ∀ j,
    (s.valve j).schedule.alphaEff = 0
      ∨ (Par.amin im ≤ (s.valve j).schedule.alphaEff
          ∧ (s.valve j).schedule.alphaEff ≤ Par.amax im)

/-- The reply queues, counts and cursors of the links, and the runs and counts of the channels, stay
in their ranges (R43, R44, R51, R142, R145, R151, R159). -/
structure State.LineInv (s : State) : Prop where
  waiting : ∀ l, (s.link l).waiting.length ≤ 2
  onLine : ∀ l, (s.link l).onLine = none → (s.link l).waiting = []
  heard : ∀ l, (s.link l).silent = false → (s.link l).lastValid.isSome
  errors : ∀ l, (s.link l).errors ≤ 65535
  foreign : ∀ l, (s.link l).foreign ≤ 65535
  cursor : ∀ l, 1 ≤ (s.link l).cursor.position ∧ (s.link l).cursor.position ≤ 80
  up : ∀ j, (s.valve j).channel.up = true →
    (s.valve j).channel.run = 0 ∧ (s.valve j).channel.lastMessage.isSome
  run : ∀ j, (s.valve j).channel.run ≤ 7
  counts : ∀ j, (s.valve j).channel.errors ≤ 65535 ∧ (s.valve j).channel.noiseCycle ≤ 255
    ∧ (s.valve j).channel.noiseTotal ≤ 65535

/-- One installed record is consistent (R54, R55, R68, R71). -/
structure Level.Inv (l : Level) (mdark counter : Nat) : Prop where
  installed : l.state ≠ .absent
  miss : l.miss ≤ mdark
  indicated : l.indicated = true → l.state.counting = true
  retiredBy : l.retiredBy.isSome ↔ l.state = .retired
  firstFault : 0 < l.faultCount → l.firstFault.isSome
  counts : l.pfiCount ≤ 255 ∧ l.faultCount ≤ 255 ∧ l.strayCount ≤ 255
  stamp : l.stamp ≤ counter

/-- The number of a valve's installed records in a state (R85). -/
def ValveRecord.inState (v : ValveRecord) (st : LevelState) : Nat :=
  v.levels.countP fun l => decide (l.state = st)

/-- A valve record agrees with its level records (R54, R84, R85, R86, R98). -/
structure ValveRecord.Inv (v : ValveRecord) (nv rv mdark counter : Nat) : Prop where
  installed : v.levels.length = nv
  levels : ∀ l ∈ v.levels, l.Inv mdark counter
  unproven : v.monitor.tally.unproven = v.inState .unproven
  sound : v.monitor.tally.sound = v.inState .sound
  suspect : v.monitor.tally.suspect = v.inState .suspect
  dark : v.monitor.tally.dark = v.inState .dark
  faulted : v.monitor.tally.faulted = v.inState .faulted
  retired : v.monitor.tally.retired = v.inState .retired
  margin : v.monitor.margin = marginOf v.failed rv
  indicated : v.monitor.indicated = v.levels.countP fun l => l.indicated
  distinctPfi : v.monitor.distinctPfi = v.levels.countP fun l => l.pfi

/-- In READY every valve record agrees with the Level Table; the counter stays in its range (R54,
R59, R84, R85, R86, R98). -/
structure State.LevelInv (s : State) : Prop where
  counter : s.counter ≤ 4294967295
  valves : ∀ im, s.unit = .ready im → ∀ j,
    (s.valve j).Inv (Par.nv j im) (Par.rv j im) (Par.mdark im) s.counter

/-- No two level records carry the same non-zero change stamp, and no stamp exceeds the table change
counter (R58). -/
structure State.StampInv (s : State) : Prop where
  bound : ∀ j p, ((s.valve j).level p).stamp ≤ s.counter
  limit : s.counter ≤ 4294967295
  distinct : ∀ i j p q, (i, p) ≠ (j, q) → ((s.valve i).level p).stamp ≠ 0 →
    ((s.valve i).level p).stamp ≠ ((s.valve j).level q).stamp

end Sys2Proof.Machine
end

