-- ==== Sys2Proof/Certificates/Slice0/Obligations.lean ====
section
/-! DEFINITION. The statements for the provers, chapter by chapter. Each docstring names the rules it
formalises; what rests on a choice of the model names the assumption. -/

open Sys2Proof Sys2Proof.Machine

/-! ## Steps -/

/-- A step takes the command at the front of the queue and runs it on the state with the queue's
rest. -/
def Obligations.StepTakesTheFrontCommand : Prop :=
  ∀ (s : State) (c : Instr) (rest : List Instr), s.pending = c :: rest →
    step s = exec c { s with pending := rest }

/-- On an empty queue one tick of the free-running timebase passes, modulo 2^32; in reset the timebase
stands (00_scope.md, Time; R167; that a step without a command is one tick is assumption 2). Instants are
counted and compared modularly (00_scope.md, Time; R18). -/
def Obligations.EmptyQueuePassesOneTick : Prop :=
  (∀ s : State, s.pending = [] →
    (s.live → step s = .next { s with timebase := s.timebase + 1 })
    ∧ (∀ c, s.unit = .held c → step s = .next s))
  ∧ ∀ (t t' : Instant) (n : Nat),
    (after t n).toNat = (t.toNat + n) % 4294967296
    ∧ span t t' = (t'.toNat + 4294967296 - t.toNat) % 4294967296
    ∧ (later t' t = true ↔ 1 ≤ span t t' ∧ span t t' ≤ 2147483647)
    ∧ (reached t' t = true ↔ t' = t ∨ later t' t = true)

/-! ## Resets and start-up -/

/-- Every reset gives every block its values after a reset, whatever the state (R16, R35, R51, R81,
R107, R121, R141, R154, R157, R167, R168); the part is held, by the pin for as long as it stays low and by a
power-on reset until the supply is stable, and the RESET_END that ends the last reset in effect takes it to
LOADING with the start cause of the later one (R164, R167). The model's own here: what a reset keeps, the
level of the reference input, the trace, the choices and the queue, and that the start cause stands until
the end (assumption 3); the quorum-wait length of 0 (assumption 11); that an end with no reset of its kind in
effect acts on nothing, that an unstable supply holds the part past the high pin, and that a power-on reset
under a low pin leaves the pin holding the part and replaces its cause (assumption 15). -/
def Obligations.ResetsGiveEveryBlockItsValues : Prop :=
  ∀ s : State,
    let blank (c : StartCause) (b : HeldBy) : Host.Outcome State Fault Refusal :=
      .next (blankState s (.held { cause := c, heldBy := b }) s.startCause)
    (s.live → exec .powerOnReset s = blank .power .powerOn ∧ exec .resetPin s = blank .pin .pin
      ∧ ∀ e, exec (.resetEnd e) s = .next s)
    ∧ ∀ h : Hold, s.unit = .held h →
      let stillHeld (b : HeldBy) : Host.Outcome State Fault Refusal :=
        .next { s with unit := .held { h with heldBy := b } }
      let loading : Host.Outcome State Fault Refusal :=
        .next { s with unit := .loading s.timebase, startCause := h.cause }
      exec .powerOnReset s = blank .power (if h.heldBy = .powerOn then .powerOn else .both)
      ∧ exec .resetPin s = blank .pin (if h.heldBy = .pin then .pin else .both)
      ∧ (h.heldBy = .powerOn →
        exec (.resetEnd .supplyStable) s = loading ∧ exec (.resetEnd .pinHigh) s = .next s)
      ∧ (h.heldBy = .pin →
        exec (.resetEnd .pinHigh) s = loading ∧ exec (.resetEnd .supplyStable) s = .next s)
      ∧ (h.heldBy = .both →
        exec (.resetEnd .supplyStable) s = stillHeld .pin
        ∧ exec (.resetEnd .pinHigh) s = stillHeld .powerOn)

/-- While the part is held in reset no command but a reset or its end changes its state; the level of
the reference input, which is outside the part, follows its own rows (R167; assumption 3). -/
def Obligations.HeldPartChangesNothing : Prop :=
  ∀ (s : State) (h : Hold) (i : Instr), s.unit = .held h →
    i ≠ .powerOnReset → i ≠ .resetPin → (∀ e, i ≠ .resetEnd e) →
    exec i s = .next { s with refHigh := inputAfter i s.refHigh }

/-- An image is valid exactly when it passes the three checks of R163, its parameters read each from
its word (The image). The end of the configuration read (R164): within 500,000 ticks of LOADING, valid
words become both images and every block starts under them (R16, R37, R81, R107, R121, R141, R145):
each channel sends one IDLE, SEEKING is posted, and a link whose limit has passed under the new TSIL
becomes silent with its event. Invalid words go to the staging image and the unit to CONFIG_FAULT. From
500,000 ticks on the read is abandoned with the staging image zero. That both the words and the
abandoning act at the tick of the limit itself is the model's (assumption 17), and so is the quorum-wait
length of 0 with which a valve starts (assumption 11). -/
def Obligations.ConfigurationReadEnds : Prop :=
  (∀ im : Image, parametersRead im
    ∧ (imageValid im = true ↔
        wordOf im 0 = 1 ∧ ((List.range 64).map (wordOf im)).sum % 65536 = 0
          ∧ groupWordsFit im ∧ ∀ j, valveWordsFit im j))
  ∧ ∀ (s : State) (t : Instant) (began : Instant) (words : Image), s.unit = .loading began →
    (span began t ≤ 500000 → imageValid words = true →
      ∃ u, exec (.loadingReadDone t words) s = .next u
        ∧ u = { s.atInstant t with
            unit := .ready words
            staging := words
            tracker := { detector := .disarmed (if s.refHigh then none else some t)
                         period := Par.pnom words }
            counter := 0
            valves := Vector.ofFn fun j =>
              { blankValve with
                monitor := { blankValve.monitor with
                  tally := { unproven := Par.nv j words }
                  margin := if Par.rv j words = 0 then .atLimit else .ample }
                channel := { blankValve.channel with lastSend := some t }
                levels := List.replicate (Par.nv j words) { state := .unproven } }
            guard := {}
            linkA := u.linkA
            linkB := u.linkB
            sent := (allValves.map fun j => Sent.channel j (idleMessage t)).reverse ++ s.sent }
        ∧ (∀ l, u.link l = { s.link l with
              silent := (s.link l).silent || (s.link l).overdue t (Par.tsil words * 1000)
              attention := (u.link l).attention })
        ∧ Posted s u .sync syncSeeking
        ∧ Posted s u .link
            ((if s.linkA.overdue t (Par.tsil words * 1000) then linkASilent else 0)
              ||| if s.linkB.overdue t (Par.tsil words * 1000) then linkBSilent else 0)
        ∧ ∀ l src, src ≠ .sync → src ≠ .link → u.word l src = s.word l src)
    ∧ (span began t ≤ 500000 → imageValid words = false →
      exec (.loadingReadDone t words) s
        = .next { s.atInstant t with unit := .configFault, staging := words })
    ∧ (reached t (after began 500000) = true →
      exec (.loadingTimeout t) s
        = .next { s.atInstant t with
            unit := .configFault, staging := Vector.replicate 64 0 })

/-! ## Synchronism -/

/-- The crossing detector in READY follows the reference input (R2, R3). A rise within the low run makes
tl absent and a fall in DISARMED starts one, whichever of the two rows of its direction brings it; the
starting tick itself counts, for a rise taken after the entry to READY (R165; assumption 7). -/
def Obligations.DetectorFollowsTheInput : Prop :=
  ∀ (s : State) (t : Instant) (im : Image), s.unit = .ready im →
    let result (high : Bool) (d : Detector) : Host.Outcome State Fault Refusal :=
      .next { s.atInstant t with refHigh := high, tracker := { s.tracker with detector := d } }
    (s.tracker.detector = .armed →
      exec (.crossingCandidate t) s = result true (.confirming t))
    ∧ (∀ t0, s.tracker.detector = .confirming t0 → 1 ≤ span t0 t → span t0 t ≤ Par.tconf im →
      exec (.candidateDropped t) s = result false .armed)
    ∧ (s.tracker.detector = .disarmed none →
      exec (.lowRunStart t) s = result false (.disarmed (some t))
      ∧ exec (.candidateDropped t) s = result false (.disarmed (some t)))
    ∧ (∀ tl, s.tracker.detector = .disarmed (some tl) → span tl t ≤ Par.tconf im →
      exec (.lowRunBroken t) s = result true (.disarmed none)
      ∧ exec (.crossingCandidate t) s = result true (.disarmed none))
    ∧ (∀ tl, s.tracker.detector = .disarmed (some tl) →
        reached t (after tl (Par.tconf im)) = true →
      exec (.detectorRearm t) s = result false .armed)

/-- The sync machine judges a crossing `t0` at its confirmation (R4, R6, R10 to R13): the tracker as the
table of the Sync states gives it, the LOCKED or DISTURBANCE event, and the reference handed on. The
detector is DISARMED with tl absent (R2). -/
def Obligations.ConfirmedCrossingIsJudged : Prop :=
  ∀ (s : State) (t t0 : Instant) (im : Image), s.unit = .ready im →
    s.tracker.detector = .confirming t0 → reached t (after t0 (Par.tconf im)) = true →
    let tr : Tracker := { s.tracker with detector := .disarmed none }
    let result (tr' : Tracker) : State := { s.atInstant t with refHigh := true, tracker := tr' }
    let p := s.tracker.period
    (∀ r, s.tracker.tref = some r →
        span r t0 ≤ Par.pnom im + Par.pnom im / 12 → Par.pnom im ≤ span r t0 + Par.pnom im / 12 →
      let p' := periodFilter p (span r t0)
      let d := some (after t0 (p' + p' / 8))
      let locked : Tracker := { tr with
        sync := .locked, tref := some t0, period := p', deadline := d
        goodRun := 0, relockRun := 0, holdover := 0 }
      (s.tracker.sync = .locked →
        exec (.crossingConfirmed t) s
          = .next ((result { tr with tref := some t0, period := p', deadline := d }).handReference
              im t0))
      ∧ (s.tracker.sync = .holdover → s.tracker.relockRun = 0 →
        exec (.crossingConfirmed t) s
          = .next ((result { tr with
              tref := some t0, period := p', deadline := d, relockRun := 1 }).handReference im t0))
      ∧ (s.tracker.sync = .holdover → 1 ≤ s.tracker.relockRun →
        exec (.crossingConfirmed t) s
          = .next (((result locked).post .sync syncLocked).handReference im t0))
      ∧ (s.tracker.sync = .seeking ∨ s.tracker.sync = .lost → s.tracker.goodRun < 3 →
        exec (.crossingConfirmed t) s
          = .next ((result { tr with
              tref := some t0, period := p', goodRun := s.tracker.goodRun + 1
              deadline := if s.tracker.sync = .seeking then none else d }).handReference im t0))
      ∧ (s.tracker.sync = .seeking ∨ s.tracker.sync = .lost → 3 ≤ s.tracker.goodRun →
        exec (.crossingConfirmed t) s
          = .next (((result locked).post .sync syncLocked).handReference im t0)))
    ∧ ((∀ r, s.tracker.tref = some r →
          Par.pnom im + Par.pnom im / 12 < span r t0 ∨ span r t0 + Par.pnom im / 12 < Par.pnom im) →
      (s.tracker.sync = .locked ∨ s.tracker.sync = .holdover →
        exec (.crossingConfirmed t) s
          = .next ((result { tr with
              disturbances := min 65535 (s.tracker.disturbances + 1)
              relockRun := if s.tracker.sync = .holdover then 0 else s.tracker.relockRun }).post
              .sync syncDisturbance))
      ∧ (s.tracker.sync = .seeking ∨ s.tracker.sync = .lost →
        exec (.crossingConfirmed t) s
          = .next ((result { tr with
              tref := some t0, goodRun := 0
              deadline := if s.tracker.sync = .seeking then none
                else some (after t0 (p + p / 8)) }).handReference im t0)))

/-- A reached deadline places a synthetic reference at Tref + P, moves the sync state and its counts by
state, and hands the reference on; an entry to LOST is handed to the controller (R6, R11, R12, R13,
R15). -/
def Obligations.DeadlinePlacesASyntheticReference : Prop :=
  ∀ (s : State) (t r d : Instant) (im : Image), s.unit = .ready im →
    s.tracker.tref = some r → s.tracker.deadline = some d → reached t d = true →
    let z := after r s.tracker.period
    let tr : Tracker := { s.tracker with
      tref := some z, deadline := some (after z (s.tracker.period + s.tracker.period / 8)) }
    let n := min 16 (s.tracker.holdover + 1)
    (s.tracker.sync = .locked →
      exec (.deadlineReached t) s
        = .next ((({ s.atInstant t with tracker := { tr with
            sync := .holdover, holdover := 1, relockRun := 0 } }).post .sync
            syncHoldover).handReference im z))
    ∧ (s.tracker.sync = .holdover → n ≤ Par.holdmax im →
      exec (.deadlineReached t) s
        = .next (({ s.atInstant t with tracker := { tr with
            holdover := n, relockRun := 0 } }).handReference im z))
    ∧ (s.tracker.sync = .holdover → Par.holdmax im < n →
      exec (.deadlineReached t) s
        = .next (((({ s.atInstant t with tracker := { tr with
            sync := .lost, holdover := n, relockRun := 0, goodRun := 0 } }).post .sync
            syncLost).hand .syncLost).handReference im z))
    ∧ (s.tracker.sync = .lost →
      exec (.deadlineReached t) s
        = .next (({ s.atInstant t with tracker := { tr with goodRun := 0 } }).handReference im z))

/-- The period filter adds D/8 rounded to the nearest integer, halves away from zero; the new estimate
lies between the old one and M (R5). The rounded quotient of the other rules, q(x, y), rounds exact halves
up: it is floor((x + floor(y/2)) / y) (00_scope.md, Rounded quotient). -/
def Obligations.PeriodFilterRoundsAwayFromZero : Prop :=
  (∀ x y : Nat, 0 < y →
    roundedQuotient x y * y ≤ x + y / 2 ∧ x + y / 2 < (roundedQuotient x y + 1) * y)
  ∧ ∀ p m : Nat,
    let d : Int := (m : Int) - p
    let step : Int := (periodFilter p m : Int) - p
    (-4 ≤ 8 * step - d ∧ 8 * step - d ≤ 4)
    ∧ (8 * step - d = 4 → 0 < d) ∧ (8 * step - d = -4 → d < 0)
    ∧ min p m ≤ periodFilter p m ∧ periodFilter p m ≤ max p m

/-- A cycle reference handed on reaches every receiver (R8): the cycle number goes up by 1 (R9); each
valve is offered Tref + q((36,000 + θj) × P, 36,000), appended to an empty queue or behind one zero
at least floor(P/4) earlier, and otherwise a counted slip with SLIP posted (R20, R21, R22); noise this
cycle is 0 (R50); the guard closes its cycle and hands PERSISTENT_CF at CFLIM (R117, R118). Nothing else
moves, and with no cause handed outside DEBLOCKING that is all; otherwise the causes are then taken, after
the rest of the reference (R136; assumption 4), and in DEBLOCKING with the recheck. -/
def Obligations.ReferenceReachesEveryReceiver : Prop :=
  ∀ (s : State) (im : Image) (tref : Instant),
    let u := s.handReference im tref
    let p := s.tracker.period
    let count := if s.guard.mark then min 255 (s.guard.failCycles + 1) else 0
    let z (j : Valve) : Instant :=
      after tref (roundedQuotient ((36000 + (Par.phi0 im + j.val * 3000) % 36000) * p) 36000)
    let fits (j : Valve) : Prop := (s.valve j).schedule.zeros = []
      ∨ ∃ z1, (s.valve j).schedule.zeros = [z1]
        ∧ (z j = after z1 (p / 4) ∨ later (z j) (after z1 (p / 4)) = true)
    ∃ w : State,
      w = { s with
        tracker := { s.tracker with cycle := s.tracker.cycle + 1 }
        valves := w.valves
        guard := { s.guard with
          mark := false, failCycles := count, lowest := none, reportedLow := s.guard.lowest }
        linkA := w.linkA
        linkB := w.linkB
        handed := s.handed ++
          (if s.guard.mark = true ∧ s.par Par.cflim ≤ count then [.persistentCf] else []) }
      ∧ LinksKept s w
      ∧ (∀ j,
          let v := s.valve j
          let quiet : Channel := { v.channel with noiseCycle := 0 }
          (fits j → w.valve j = { v with
              channel := quiet, schedule := { v.schedule with zeros := v.schedule.zeros ++ [z j] } }
            ∧ ∀ l, w.word l (.valve j) = s.word l (.valve j))
          ∧ (¬ fits j → w.valve j = { v with
              channel := quiet
              schedule := { v.schedule with slips := min 65535 (v.schedule.slips + 1) } }
            ∧ Posted s w (.valve j) valveSlip))
      ∧ (∀ l src, (∀ j, src ≠ .valve j) → w.word l src = s.word l src)
      ∧ (s.group.mode ≠ .deblocking → w.handed = [] → u = w)
      ∧ (s.group.mode ≠ .deblocking → u = w.handed.foldl State.latch { w with handed := [] })
      ∧ (s.group.mode = .deblocking → u = w.recheckAndSettle)
      ∧ u.tracker = w.tracker ∧ u.guard = { w.guard with advance := u.guard.advance }
      ∧ (∀ j, (u.valve j).schedule.zeros = (w.valve j).schedule.zeros
        ∧ (u.valve j).schedule.slips = (w.valve j).schedule.slips
        ∧ (u.valve j).channel = { (w.valve j).channel with
            lastSend := (u.valve j).channel.lastSend })
      ∧ (s.guard.mark = true → s.par Par.cflim ≤ count → u.group.trips.persistentCf = true)
      ∧ u.handed = [] ∧ RestKept s u

/-- The first reference in DEBLOCKING rechecks the preconditions with the sync state the tracker then
holds (R128): RUNNING, or BLOCKED with the refusal; A is 0 and the gating stopped (R119, R131). Where a
trip cause is handed at that reference, each of the two acts on the mode the other left (R138, R136,
R137): the cause first ends BLOCKED with refusal TRIP; the recheck first goes to RUNNING, where the cause
acts, or to BLOCKED, where SYNC_LOST is not latched; a cause held already changes nothing. Beside a BLOCK
taken after it at the same tick SYNC_LOST is latched without action (R15, assumption 25). The free choice of
the order is assumption 5; that the causes come after the rest of the reference is assumption 4. -/
def Obligations.FirstReferenceRechecksDeblocking : Prop :=
  ∀ (s : State) (im : Image) (tref : Instant), s.unit = .ready im → s.group.mode = .deblocking →
    let u := s.handReference im tref
    let count := if s.guard.mark = true then min 255 (s.guard.failCycles + 1) else 0
    let causes := s.handed ++
      (if s.guard.mark = true ∧ Par.cflim im ≤ count then [TripCause.persistentCf] else [])
    let running : Group := { s.group with
      mode := .running, origin := none, legs := none, gatingExpiry := none }
    let blocked (why : RefusalReason) : Group := { s.group with
      mode := .blocked, origin := none, refusal := some why, lastUpperY := none
      lastUpperD := none, legs := none, gatingExpiry := none }
    let refused := Posted s u .mode (modeBlocked ||| modeRefused)
    (causes = [] →
      (s.fit → u.group = running ∧ Posted s u .mode modeRunning)
      ∧ ∀ why, s.deblockFault = some why → u.group = blocked why ∧ refused)
    ∧ (∀ c, causes = [c] →
      let trips := s.group.trips.add c
      let causeFirst := s.choices.headD 0 % 2 = 0
      let unacted := c = .syncLost ∧ s.blockFollows = true
      (s.group.trips.has c = true → ∀ why, s.deblockFault = some why →
        u.group = blocked why ∧ refused)
      ∧ (s.group.trips.has c = false → causeFirst → ¬ unacted →
        u.group = { blocked .trip with trips := trips } ∧ refused ∧ Posted s u .trip c.bit)
      ∧ (s.group.trips.has c = false → causeFirst → unacted →
        ∀ why, ({ s with group := { s.group with trips := trips } }).deblockFault = some why →
          u.group = { blocked why with trips := trips } ∧ refused ∧ Posted s u .trip c.bit)
      ∧ (s.group.trips.has c = false → ¬ causeFirst →
        (∀ why, s.deblockFault = some why →
          u.group = { blocked why with trips := if c = .syncLost then s.group.trips else trips }
          ∧ refused ∧ Posted s u .trip (if c = .syncLost then 0 else c.bit))
        ∧ (s.fit → (Par.byptrip im ≠ 1 ∧ c ≠ .controlLoss) ∨ unacted →
          u.group = { running with trips := trips }
          ∧ Posted s u .mode modeRunning ∧ Posted s u .trip c.bit)
        ∧ (s.fit → Par.byptrip im = 1 ∨ c = .controlLoss → ¬ unacted →
          u.group.mode = .bypass ∧ u.group.origin = none ∧ u.group.trips.has c = true
          ∧ (∃ l, u.group.legs = some l ∧ ∀ j ∈ l.valves, Fired s u s.timebase .bypass j)
          ∧ Posted s u .mode (modeRunning ||| modeBypass)
          ∧ ∀ l, u.word l .trip &&& c.bit = c.bit)))
    ∧ (causes.length ≤ 1 → u.guard.advance = 0 ∧ (u.group.mode ≠ .bypass → u.sent = s.sent))

/-! ## Firing -/

/-- A take-up latches α_eff = clamp(α_order − A, AMIN, AMAX) with GUARD = 1 in RUNNING from an order of
9,000 on, and clamp(α_order, AMIN, AMAX) in every other case; under a valid image the latched angle
lies within AMIN … AMAX (R25). -/
def Obligations.TakeUpLatchesTheEffectiveAngle : Prop :=
  ∀ (s : State) (t z : Instant) (j : Valve) (rest : List Instant) (im : Image),
    s.unit = .ready im → imageValid im = true →
    (s.valve j).schedule.zeros = z :: rest → reached t z = true →
    let alpha := s.order.alpha.toNat
    let x := if Par.guard im = 1 ∧ s.group.mode = .running ∧ 9000 ≤ alpha
      then alpha - s.guard.advance else alpha
    ∃ u, exec (.takeUp t j) s = .next u
      ∧ (u.valve j).schedule.alphaEff = max (Par.amin im) (min (Par.amax im) x)
      ∧ Par.amin im ≤ (u.valve j).schedule.alphaEff
      ∧ (u.valve j).schedule.alphaEff ≤ Par.amax im
      ∧ (u.valve j).schedule.zero = z ∧ (u.valve j).schedule.zeros = rest

/-- A take-up outside RUNNING schedules nothing; in BLOCKED, and in BYPASS outside the legs, it closes
the interval of a BLOCKING valve, and in every other case only the zero and the angle move (R24, R33,
R95). That a trip cause of the closing is taken after it is the model's reading (assumption 4). -/
def Obligations.TakeUpOutsideRunning : Prop :=
  ∀ (s : State) (t z : Instant) (j : Valve) (rest : List Instant) (im : Image),
    s.unit = .ready im → s.group.mode ≠ .running →
    (s.valve j).schedule.zeros = z :: rest → reached t z = true →
    let v := s.valve j
    let s1 := (s.atInstant t).setValve j { v with schedule := { v.schedule with
      zeros := rest, zero := z
      alphaEff := clamp s.order.alpha.toNat (Par.amin im) (Par.amax im) } }
    let closes := v.monitor.phase = .blocking
      ∧ (s.group.mode = .blocked
          ∨ (s.group.mode = .bypass ∧ ∀ l, s.group.legs = some l → j ∉ l.valves))
    (closes → exec (.takeUp t j) s = .next (s1.closeInterval j).settle)
    ∧ (¬ closes → exec (.takeUp t j) s = .next s1)

/-- A take-up in RUNNING first issues an unissued firing as PULLED-IN with SLIP posted, and then sets
Fj, Dj and the quorum-wait length from the new zero (R28, R29); with nothing unissued only the
valve's schedule moves. That a trip cause of the closing is taken after the new Fj and Dj are set is the
model's reading (assumption 4). -/
def Obligations.TakeUpInRunningSchedules : Prop :=
  ∀ (s : State) (t z : Instant) (j : Valve) (rest : List Instant) (im : Image),
    s.unit = .ready im → s.group.mode = .running →
    (s.valve j).schedule.zeros = z :: rest → reached t z = true →
    let p := s.tracker.period
    let q (a : Nat) := roundedQuotient (a * p) 36000
    (s.nothingUnissued j →
      ∃ a, exec (.takeUp t j) s
        = .next ((s.atInstant t).setValve j { s.valve j with schedule := { (s.valve j).schedule with
            zeros := rest, zero := z, alphaEff := a
            fireAt := some (after z (q a)), deadline := some (after z (q 30000))
            waitLength := q (Par.qwait im) } }))
    ∧ ((s.valve j).schedule.fireAt.isSome →
      ∃ (u : State) (a : Nat), exec (.takeUp t j) s = .next u ∧ Fired s u t .pulledIn j
        ∧ (let taken := (s.atInstant t).setValve j { s.valve j with
            schedule := { (s.valve j).schedule with zeros := rest, zero := z, alphaEff := a } }
          let pulled := (taken.issue .pulledIn j).post (.valve j) valveSlip
          u = (pulled.setValve j { pulled.valve j with schedule := { (pulled.valve j).schedule with
            fireAt := some (after z (q a)), deadline := some (after z (q 30000))
            waitLength := q (Par.qwait im) } }).settle)
        ∧ (∀ l, u.word l (.valve j) &&& valveSlip = valveSlip)
        ∧ (u.valve j).schedule.alphaEff = a ∧ (u.valve j).schedule.expiry = none
        ∧ (u.group.mode = .running →
            (u.valve j).schedule.fireAt = some (after z (q a))
            ∧ (u.valve j).schedule.deadline = some (after z (q 30000))
            ∧ (u.valve j).schedule.waitLength = q (Par.qwait im))
        ∧ RestKept (s.atInstant t) u)

/-- At Fj in RUNNING a BLOCKING valve short of Qv is held in a quorum wait with expiry Fj + the wait
length, and nothing else moves; any other valve is fired SCHEDULED and the firing is issued (R30,
R99). That a trip cause of the closing is taken after the firing has acted on the predecessor too is the
model's reading (assumption 4). -/
def Obligations.FiringInstantChecksReadiness : Prop :=
  ∀ (s : State) (t f : Instant) (j : Valve) (im : Image), s.unit = .ready im →
    s.group.mode = .running → (s.valve j).schedule.fireAt = some f →
    (s.valve j).schedule.expiry = none → reached t f = true →
    let v := s.valve j
    let short := v.monitor.phase = .blocking
      ∧ v.monitor.indicated < Par.nv j im - Par.rv j im
    (short →
      exec (.firingInstant t j) s
        = .next ((s.atInstant t).setValve j { v with schedule := { v.schedule with
            expiry := some (after f v.schedule.waitLength) } }))
    ∧ (¬ short →
      ∃ u, exec (.firingInstant t j) s = .next u
        ∧ u = ((s.atInstant t).issue .scheduled j).settle
        ∧ Fired s u t .scheduled j ∧ u.nothingUnissued j ∧ RestKept (s.atInstant t) u)

/-- The expiry of an open quorum wait fires the valve FORCED and posts FORCED; the firing is issued and
the wait over (R30, R100). That a trip cause of the closing is taken after the whole firing and the
posting of FORCED is the model's reading (assumption 4). -/
def Obligations.WaitExpiryForcesTheFiring : Prop :=
  ∀ (s : State) (t e : Instant) (j : Valve), s.live →
    (s.valve j).schedule.expiry = some e → reached t e = true →
    ∃ u, exec (.forcedFiring t j) s = .next u
      ∧ u = (((s.atInstant t).issue .forced j).post (.valve j) valveForced).settle
      ∧ Fired s u t .forced j ∧ u.nothingUnissued j
      ∧ (∀ l, u.word l (.valve j) &&& valveForced = valveForced)
      ∧ RestKept (s.atInstant t) u

/-- Dj reached in RUNNING fails a COMMUTATING valve: it returns to CONDUCTING with its interval open,
A becomes ADVMAX, the failure is counted, the cycle marked and CFAIL posted (R32, R92, R114). A valve
BLOCKING or CONDUCTING is left as it is. -/
def Obligations.DeadlineFailsACommutatingValve : Prop :=
  ∀ (s : State) (t d : Instant) (j : Valve) (im : Image), s.unit = .ready im →
    s.group.mode = .running → (s.valve j).schedule.deadline = some d → reached t d = true →
    let v := s.valve j
    (v.monitor.phase = .commutating →
      exec (.extinctionDeadline t j) s
        = .next (({ s.atInstant t with
            valves := s.valves.set j { v with
              commFailures := min 65535 (v.commFailures + 1)
              monitor := { v.monitor with phase := .conducting } }
            guard := { s.guard with advance := Par.advmax im, mark := true } }).post
            (.valve j) valveCfail))
    ∧ (v.monitor.phase ≠ .commutating →
      exec (.extinctionDeadline t j) s = .next (s.atInstant t))

/-- A fire message handed to channel `j` (R38, R88, R90, R132): it goes out with the timebase and the
mask as they stand; the last-send time, the last fire instant and the count of its kind are set; a
BLOCKING or COMMUTATING valve becomes CONDUCTING and closes its interval, a CONDUCTING one keeps it; no Bj
is recorded and no margin measured; outside BLOCKED an upper valve is noted; in RUNNING a CONDUCTING predecessor, the valve 4 before `j` in
firing order, wrapped (00_scope.md, Valves and levels), starts to commutate, or fails at once with CFAIL
posted when its Dj has been reached (R114). No other valve moves, and no other word but that of `j`. -/
def Obligations.FireMessageActsOnItsValve : Prop :=
  ∀ (s : State) (k : FireKind) (j : Valve),
    let u := s.fire k j
    let v := s.valve j
    let w := u.valve j
    let i := predecessor j
    (i.val + 4) % 12 = j.val
    ∧ u.sent = s.fireSent s.timebase j :: s.sent
    ∧ w.channel = { v.channel with lastSend := some s.timebase }
    ∧ w.monitor.lastFire = some s.timebase ∧ w.monitor.phase = .conducting
    ∧ (∀ k', w.firingCount k'
        = if k' = k then min 65535 (v.firingCount k + 1) else v.firingCount k')
    ∧ w.schedule = { v.schedule with pulledIn := w.schedule.pulledIn }
    ∧ w.monitor.blockBack = v.monitor.blockBack ∧ w.lastGamma = v.lastGamma
    ∧ w.commFailures = v.commFailures
    ∧ (v.monitor.phase = .conducting →
        w.levels = v.levels ∧ w.monitor.tally = v.monitor.tally
        ∧ w.monitor.margin = v.monitor.margin ∧ w.monitor.indicated = v.monitor.indicated
        ∧ w.monitor.distinctPfi = v.monitor.distinctPfi ∧ u.counter = s.counter
        ∧ u.handed = s.handed ∧ ∀ l, u.word l (.valve j) = s.word l (.valve j))
    ∧ (v.monitor.phase ≠ .conducting →
        let r := reviewAll (s.par Par.msus) (s.par Par.mdark)
          (decide (s.par (Par.qv j) ≤ v.monitor.indicated)) s.counter v.levels
        let closed := s.closeInterval j
        w.levels = r.levels ∧ u.counter = r.counter
        ∧ w.monitor.indicated = 0 ∧ w.monitor.distinctPfi = 0
        ∧ w.monitor.tally = (closed.valve j).monitor.tally
        ∧ w.monitor.margin = (closed.valve j).monitor.margin ∧ u.handed = closed.handed
        ∧ ∀ l, u.word l (.valve j) = closed.word l (.valve j))
    ∧ u.group = { s.group with
        lastUpperY := if s.group.mode = .blocked then s.group.lastUpperY
          else if j = 0 then some .one else if j = 4 then some .three
          else if j = 8 then some .five else s.group.lastUpperY
        lastUpperD := if s.group.mode = .blocked then s.group.lastUpperD
          else if j = 1 then some .one else if j = 5 then some .three
          else if j = 9 then some .five else s.group.lastUpperD }
    ∧ (∀ i', i' ≠ j → (s.group.mode ≠ .running ∨ i' ≠ i
        ∨ (s.valve i).monitor.phase ≠ .conducting) → u.valve i' = s.valve i')
    ∧ (s.group.mode = .running → (s.valve i).monitor.phase = .conducting →
        ((∃ d, (s.valve i).schedule.deadline = some d ∧ reached s.timebase d = true) →
          u.valve i = { s.valve i with commFailures := min 65535 ((s.valve i).commFailures + 1) }
          ∧ u.guard = { s.guard with advance := s.par Par.advmax, mark := true }
          ∧ Posted s u (.valve i) valveCfail)
        ∧ ((∀ d, (s.valve i).schedule.deadline = some d → reached s.timebase d = false) →
          u.valve i = { s.valve i with
            monitor := { (s.valve i).monitor with phase := .commutating } }
          ∧ u.guard = s.guard ∧ ∀ l, u.word l (.valve i) = s.word l (.valve i)))
    ∧ (s.group.mode ≠ .running ∨ (s.valve i).monitor.phase ≠ .conducting →
        u.guard = s.guard ∧ ∀ l, u.word l (.valve i) = s.word l (.valve i))
    ∧ (∀ l src, src ≠ .valve j → src ≠ .valve i → u.word l src = s.word l src)
    ∧ u.tracker = s.tracker ∧ u.choices = s.choices ∧ RestKept s u

/-- The fire mask holds the installed positions that are not RETIRED and no other (R39), and the FIRE
message of 17 bytes is kind 01 hex, the timebase of its hand-over (R38), the mask with position p at
byte 5 + floor((p − 1) / 8), bit 7 − ((p − 1) mod 8), and the CRC of all before it
(03_valve_channels_and_level_pulses.md, Message layouts). The installed positions are those of the
valve's list of records, which a READY part keeps at Nv (assumption 6). -/
def Obligations.FireMaskHoldsTheInstalledNotRetired : Prop :=
  ∀ (s : State) (j : Valve) (t : Instant) (p : Nat), 1 ≤ p → p ≤ 80 →
    let mask := fireMask (s.valve j).levels
    (mask.getLsbD (80 - p) = true ↔
      p ≤ (s.valve j).levels.length ∧ ((s.valve j).level p).state ≠ .retired
        ∧ ((s.valve j).level p).state ≠ .absent)
    ∧ (let msg := fireMessage t mask
      msg.length = 17
      ∧ msg.take 5 = [0x01#8, t.extractLsb' 24 8, t.extractLsb' 16 8, t.extractLsb' 8 8,
          t.extractLsb' 0 8]
      ∧ (∀ b, msg[5 + (p - 1) / 8]? = some b →
        b.getLsbD (7 - (p - 1) % 8) = mask.getLsbD (80 - p))
      ∧ msg.drop 15 = [(crc16 (msg.take 15)).extractLsb' 8 8, (crc16 (msg.take 15)).extractLsb' 0 8])
    ∧ ∀ k, (s.fire k j).sent = .channel j (fireMessage s.timebase mask) :: s.sent

/-! ## Valve channels -/

/-- A message that fails the check of its kind, its length or its CRC is counted as an error, and breaks
the run of a DOWN channel; nothing else moves (R41). A channel that is not served drops every message
(R37). A message that passes reads back as what its layout spells: the 12 bytes of kind 81 hex as a
PULSE REPORT with every field at its place, the 3 bytes of kind 82 hex as an OIU IDLE (R46, Message
layouts). That a message of no bytes is counted as an error too is the model's choice (DESIGN CHOICE,
assumption 26). -/
def Obligations.MessagesAreChecked : Prop :=
  (∀ msg : List Byte, (readMessage msg).isSome ↔
      ((msg.length = 12 ∧ msg.head? = some 0x81#8) ∨ (msg.length = 3 ∧ msg.head? = some 0x82#8))
      ∧ bytes2 (crc16 (msg.take (msg.length - 2))) = msg.drop (msg.length - 2))
  ∧ (∀ (position count width1 gap width2 : Byte) (stamp : Instant),
      let msg := [0x81#8, position, count, width1, gap, width2, stamp.extractLsb' 24 8,
        stamp.extractLsb' 16 8, stamp.extractLsb' 8 8, stamp.extractLsb' 0 8]
      let idle := [0x82#8]
      readMessage (msg ++ bytes2 (crc16 msg)) = some (.report
        { position := position.toNat, count := count.toNat, width1 := width1.toNat
          gap := gap.toNat, width2 := width2.toNat, stamp := stamp })
      ∧ readMessage (idle ++ bytes2 (crc16 idle)) = some .idle)
  ∧ ∀ (s : State) (t : Instant) (j : Valve) (body : List Byte),
    let v := s.valve j
    (s.isReady = true →
      let discarded := (s.atInstant t).setValve j { v with channel := { v.channel with
        errors := min 65535 (v.channel.errors + 1), run := if v.channel.up then v.channel.run else 0 } }
      (readMessage (0x81#8 :: body) = none → exec (.pulseReport t j body) s = .next discarded)
      ∧ (readMessage (0x82#8 :: body) = none → exec (.oiuIdle t j body) s = .next discarded)
      ∧ (body.head? ≠ some 0x81#8 → body.head? ≠ some 0x82#8 →
          exec (.messageOfUnknownKind t j body) s = .next discarded))
    ∧ (s.isReady = false → s.live →
      exec (.pulseReport t j body) s = .next (s.atInstant t)
      ∧ exec (.oiuIdle t j body) s = .next (s.atInstant t)
      ∧ exec (.messageOfUnknownKind t j body) s = .next (s.atInstant t))

/-- A valid OIU IDLE sets the last-message time; on a DOWN channel it counts in the run of messages
each within 2,000 ticks of the one before, and the eighth takes the channel UP with CHANNEL posted
(R42, R43, R44). -/
def Obligations.ValidMessagesProveTheChannel : Prop :=
  ∀ (s : State) (t : Instant) (j : Valve) (body : List Byte), s.isReady = true →
    readMessage (0x82#8 :: body) = some .idle →
    let v := s.valve j
    let c := v.channel
    let result (c' : Channel) : State := (s.atInstant t).setValve j { v with channel := c' }
    let inTime := ∃ m, c.lastMessage = some m ∧ span m t ≤ 2000
    (c.up = true → exec (.oiuIdle t j body) s = .next (result { c with lastMessage := some t }))
    ∧ (c.up = false → c.run = 0 →
        exec (.oiuIdle t j body) s = .next (result { c with lastMessage := some t, run := 1 }))
    ∧ (c.up = false → 1 ≤ c.run → ¬ inTime →
        exec (.oiuIdle t j body) s = .next (result { c with lastMessage := some t, run := 1 }))
    ∧ (c.up = false → 1 ≤ c.run → c.run < 7 → inTime →
        exec (.oiuIdle t j body) s
          = .next (result { c with lastMessage := some t, run := c.run + 1 }))
    ∧ (c.up = false → c.run = 7 → inTime →
        exec (.oiuIdle t j body) s
          = .next ((result { c with lastMessage := some t, up := true, run := 0 }).post
              (.valve j) valveChannel))

/-- The silence limit takes an UP channel DOWN, posts CHANNEL and hands the CHANNEL cause (R43); 500
ticks without a send bring an IDLE, kind 02 hex with the timebase and its CRC (R40, Message layouts).
Before their instants neither acts. -/
def Obligations.ChannelTimersAct : Prop :=
  (∀ t : Instant,
    let msg := [0x02#8, t.extractLsb' 24 8, t.extractLsb' 16 8, t.extractLsb' 8 8,
      t.extractLsb' 0 8]
    idleMessage t = msg ++ bytes2 (crc16 msg))
  ∧ ∀ (s : State) (t m : Instant) (j : Valve), s.isReady = true →
    let v := s.valve j
    (v.channel.up = true → v.channel.lastMessage = some m →
      (reached t (after m 2000) = true →
        exec (.channelDown t j) s
          = .next ((((s.atInstant t).setValve j { v with channel := { v.channel with
              up := false, run := 0 } }).post (.valve j) valveChannel).latch .channel))
      ∧ (reached t (after m 2000) = false →
        exec (.channelDown t j) s = .next (s.atInstant t)))
    ∧ (v.channel.lastSend = some m →
      (reached t (after m 500) = true →
        exec (.vc12Idle t j) s
          = .next { s.atInstant t with
              sent := .channel j (idleMessage t) :: s.sent
              valves := s.valves.set j { v with channel := { v.channel with
                lastSend := some t } } })
      ∧ (reached t (after m 500) = false → exec (.vc12Idle t j) s = .next (s.atInstant t)))

/-! ## Pulse reports -/

/-- The classes of a report (R46, R47, R48), and a NOISE report (R50): it proves the line as any valid
message, raises both noise counts, and posts NOISE when noise this cycle reaches NOISELIM. -/
def Obligations.ReportsAreClassified : Prop :=
  (∀ (im : Image) (j : Valve) (now : Instant) (r : PulseReport),
    let placed := 1 ≤ r.position ∧ r.position ≤ Par.nv j im ∧ span r.stamp now ≤ 4000
    let narrow (w : Nat) := Par.wil im ≤ w ∧ w ≤ Par.wih im
    let long := Par.wll im ≤ r.width1 ∧ r.width1 ≤ Par.wlh im
    (classify im j now r = .ind ↔ placed ∧ r.count = 1 ∧ narrow r.width1)
    ∧ (classify im j now r = .pfi ↔ placed ∧ r.count = 2 ∧ narrow r.width1 ∧ narrow r.width2
        ∧ Par.gl im ≤ r.gap ∧ r.gap ≤ Par.gh im)
    ∧ (classify im j now r = .lft ↔ placed ∧ r.count = 1 ∧ long ∧ ¬ narrow r.width1))
  ∧ ∀ (s : State) (t : Instant) (j : Valve) (body : List Byte) (r : PulseReport) (im : Image),
    s.unit = .ready im → readMessage (0x81#8 :: body) = some (.report r) →
    classify im j t r = .noise →
    let s1 := (s.atInstant t).superviseMessage j
    let c := (s1.valve j).channel
    let s2 := s1.setValve j { s1.valve j with channel := { c with
      noiseTotal := min 65535 (c.noiseTotal + 1), noiseCycle := min 255 (c.noiseCycle + 1) } }
    exec (.pulseReport t j body) s
      = .next (if c.noiseCycle < 255 ∧ c.noiseCycle + 1 = Par.noiselim im
          then s2.post (.valve j) valveNoise else s2)

/-- What a report does to its record and to the valve's counts, by class, state and mark (R62, R63, R64,
R66, R67, and the record's part of R65 and R68); and that a report whose standing is stray, protective
only without a protective firing, or fault without a change of state, does this and nothing else (R97).
The mark is CONDUCTION for a CONDUCTING valve outside the free regime (R96). The counting states are
UNPROVEN, SOUND and SUSPECT (R56). -/
def Obligations.ReportsActOnTheirRecord : Prop :=
  (∀ st : LevelState, st.counting = true ↔ st = .unproven ∨ st = .sound ∨ st = .suspect)
  ∧ (∀ (l : Level) (m : Monitor) (mark : Mark) (at' : Instant) (cycle : Word16),
    let ind := l.take .ind mark at' cycle
    let pfi := l.take .pfi mark at' cycle
    let lft := l.take .lft mark at' cycle
    let setsInd := mark = .interval ∧ l.indicated = false
    let stray (cls : ReportClass) (a : Answer) := a.standing = .stray
      ∧ a.level = { l with lastReport := some (cls, at'), strayCount := min 255 (l.strayCount + 1) }
      ∧ m.afterReport a = m
    (l.state.counting = true →
      ind.standing = .counting
      ∧ ind.level = { l with
          lastReport := some (.ind, at'), indicated := l.indicated || decide (mark = .interval) }
      ∧ (setsInd → m.afterReport ind = { m with indicated := m.indicated + 1 })
      ∧ (¬ setsInd → m.afterReport ind = m)
      ∧ pfi.standing = .counting
      ∧ pfi.level = { l with
          lastReport := some (.pfi, at'), pfiCount := min 255 (l.pfiCount + 1), pfi := true
          indicated := l.indicated || decide (mark = .interval) }
      ∧ (m.afterReport pfi).indicated = m.indicated + (if setsInd then 1 else 0)
      ∧ (m.afterReport pfi).distinctPfi = m.distinctPfi + (if l.pfi = false then 1 else 0))
    ∧ (l.state = .faulted →
      stray .ind ind
      ∧ pfi.standing = .protectiveOnly
      ∧ pfi.level = { l with
          lastReport := some (.pfi, at'), pfiCount := min 255 (l.pfiCount + 1), pfi := true }
      ∧ m.afterReport pfi
          = { m with distinctPfi := m.distinctPfi + (if l.pfi = false then 1 else 0) })
    ∧ (l.state = .dark → stray .ind ind ∧ stray .pfi pfi)
    ∧ (l.state = .retired → stray .ind ind ∧ stray .pfi pfi ∧ stray .lft lft)
    ∧ (l.state.counting = true ∨ l.state = .dark ∨ l.state = .faulted →
      lft.standing = .fault
      ∧ lft.level = { l with
          lastReport := some (.lft, at'), state := .faulted
          faultCount := min 255 (l.faultCount + 1), firstFault := some (l.firstFault.getD cycle)
          indicated := l.indicated && !l.state.counting }
      ∧ m.afterReport lft = { m with
          indicated := m.indicated - (if l.indicated = true ∧ l.state.counting = true then 1 else 0) }))
  ∧ ∀ (s : State) (t : Instant) (j : Valve) (body : List Byte) (r : PulseReport) (im : Image)
      (cls : ReportClass) (mark : Mark),
    s.unit = .ready im → readMessage (0x81#8 :: body) = some (.report r) →
    classify im j t r = cls.pulse →
    let s1 := (s.atInstant t).superviseMessage j
    let v := s1.valve j
    let l := v.level r.position
    let a := l.take cls mark r.stamp s.tracker.cycle
    (mark = .conduction ↔ s1.marksConduction j) → l.state ≠ .absent →
    a.standing = .stray
      ∨ (a.standing = .protectiveOnly ∧ v.noProtective (Par.ptv j im) l cls)
      ∨ (a.standing = .fault ∧ l.state = .faulted) →
    exec (.pulseReport t j body) s = .next (s1.setValve j { v with
      levels := v.levels.set (r.position - 1) a.level, monitor := v.monitor.afterReport a })

/-- A valid LFT of a counting or DARK level (R65): the record FAULTED and stamped, the valve's indicated
count without it, the change handed on and any trip cause taken, at the end of the command (assumption
4); nothing further (R60, R97). -/
def Obligations.FaultReportFaultsTheLevel : Prop :=
  ∀ (s : State) (t : Instant) (j : Valve) (body : List Byte) (r : PulseReport) (im : Image),
    s.unit = .ready im → readMessage (0x81#8 :: body) = some (.report r) →
    classify im j t r = .lft →
    let s1 := (s.atInstant t).superviseMessage j
    let v := s1.valve j
    let l := v.level r.position
    l.state.counting = true ∨ l.state = .dark →
    let l' : Level := { l with
      state := .faulted, lastReport := some (.lft, r.stamp)
      faultCount := min 255 (l.faultCount + 1)
      firstFault := some (l.firstFault.getD s.tracker.cycle)
      indicated := l.indicated && !l.state.counting
      stamp := if s.counter < 4294967295 then s.counter + 1 else 0 }
    exec (.pulseReport t j body) s
      = .next (((({ s1 with
            counter := if s.counter < 4294967295 then s.counter + 1 else s.counter }).setValve j
          { v with
            levels := v.levels.set (r.position - 1) l'
            monitor := { v.monitor with indicated := v.monitor.indicated
              - (if l.indicated = true ∧ l.state.counting = true then 1 else 0) } }).levelChange j
          (l.state, .faulted)).settle)

/-- A valid IND or PFI of a counting level that completes no quorum, refires nothing and fires nothing
PROTECTIVE (R61, R62, R63, R96, R98, R101): its record alone moves, the indicated count when it newly
set that flag, and the distinct-PFI count when a PFI newly set its own. The mark is CONDUCTION for a
CONDUCTING valve in RUNNING or in a running leg, INTERVAL otherwise. -/
def Obligations.IndicationIsCounted : Prop :=
  ∀ (s : State) (t : Instant) (j : Valve) (body : List Byte) (r : PulseReport) (im : Image)
      (cls : ReportClass),
    s.unit = .ready im → readMessage (0x81#8 :: body) = some (.report r) →
    cls ≠ .lft → classify im j t r = cls.pulse →
    let s1 := (s.atInstant t).superviseMessage j
    let v := s1.valve j
    let l := v.level r.position
    let result (flag : Bool) (count : Nat) : State := s1.setValve j { v with
      levels := v.levels.set (r.position - 1) (l.afterIndication cls r.stamp flag)
      monitor := v.monitor.afterIndication l cls count }
    l.state.counting = true → v.noProtective (Par.ptv j im) l cls →
    (¬ s1.marksConduction j → l.indicated = true →
      exec (.pulseReport t j body) s = .next (result true v.monitor.indicated))
    ∧ (¬ s1.marksConduction j → l.indicated = false →
        v.monitor.indicated + 1 ≠ Par.nv j im - Par.rv j im →
      exec (.pulseReport t j body) s = .next (result true (v.monitor.indicated + 1)))
    ∧ (s1.marksConduction j →
        (∃ f, v.monitor.lastFire = some f ∧ span f t < Par.refsp im) →
      exec (.pulseReport t j body) s = .next (result l.indicated v.monitor.indicated))

/-- The IND, or PFI that fires nothing PROTECTIVE, that brings the indicated count to Qv (R63, R91, R93,
R97, R99). Outside the free regime a COMMUTATING valve blocks back at the report's stamp, with γ measured
where Dj is present; a BLOCKING one is fired LATE, with LATE posted, where a quorum wait is open, and
otherwise only counted. In the free regime, outside RUNNING for every valve but the legs of a running
gating, the valve returns to BLOCKING, or stays so, with no Bj. That a trip cause of the late firing's
closing is taken after LATE is posted is the model's reading (assumption 4). -/
def Obligations.CompletedQuorumActs : Prop :=
  ∀ (s : State) (t : Instant) (j : Valve) (body : List Byte) (r : PulseReport) (im : Image)
      (cls : ReportClass),
    s.unit = .ready im → readMessage (0x81#8 :: body) = some (.report r) →
    cls ≠ .lft → classify im j t r = cls.pulse →
    let s1 := (s.atInstant t).superviseMessage j
    let v := s1.valve j
    let l := v.level r.position
    let n := Par.nv j im - Par.rv j im
    l.state.counting = true → v.noProtective (Par.ptv j im) l cls →
    l.indicated = false → v.monitor.indicated + 1 = n →
    let counted : ValveRecord := { v with
      levels := v.levels.set (r.position - 1) (l.afterIndication cls r.stamp true)
      monitor := v.monitor.afterIndication l cls n }
    let blocked : ValveRecord := { counted with
      monitor := { counted.monitor with phase := .blocking } }
    (s.outsideFreeRegime j → v.monitor.phase = .commutating →
      (∀ d, v.schedule.deadline = some d →
        exec (.pulseReport t j body) s
          = .next ((s1.setValve j { blocked with
              monitor := { blocked.monitor with blockBack := some r.stamp } }).measure j r.stamp d))
      ∧ (v.schedule.deadline = none →
        exec (.pulseReport t j body) s = .next (s1.setValve j blocked)))
    ∧ (¬ s.outsideFreeRegime j →
      exec (.pulseReport t j body) s = .next (s1.setValve j blocked))
    ∧ (s.outsideFreeRegime j → v.monitor.phase = .blocking →
      (v.schedule.expiry = none →
        exec (.pulseReport t j body) s = .next (s1.setValve j counted))
      ∧ (v.schedule.expiry.isSome →
        ∃ u, exec (.pulseReport t j body) s = .next u
          ∧ u = (((s1.setValve j counted).issue .late j).post (.valve j) valveLate).settle
          ∧ Fired s1 u t .late j ∧ u.nothingUnissued j
          ∧ ∀ k, u.word k (.valve j) &&& valveLate = valveLate))

/-- An IND or PFI of a counting level from a CONDUCTING valve in RUNNING or in a running leg, REFSP or
more after the valve's last fire message, or with none yet, refires it: kind REFIRE, phase and interval
unchanged (R63, R88, R96, R101). It is the fire message of every kind and nothing more: so a CONDUCTING
predecessor starts to commutate, or fails, as at any other (R90, R114; FireMessageActsOnItsValve). -/
def Obligations.DroppedLevelRefiresTheValve : Prop :=
  ∀ (s : State) (t : Instant) (j : Valve) (body : List Byte) (r : PulseReport) (im : Image)
      (cls : ReportClass),
    s.unit = .ready im → readMessage (0x81#8 :: body) = some (.report r) →
    cls ≠ .lft → classify im j t r = cls.pulse →
    let s1 := (s.atInstant t).superviseMessage j
    let v := s1.valve j
    let l := v.level r.position
    l.state.counting = true → s1.marksConduction j →
    (∀ f, v.monitor.lastFire = some f → Par.refsp im ≤ span f t) →
    let counted := s1.setValve j { v with
      levels := v.levels.set (r.position - 1) (l.afterIndication cls r.stamp l.indicated)
      monitor := v.monitor.afterIndication l cls v.monitor.indicated }
    ∃ u, exec (.pulseReport t j body) s = .next u
      ∧ u = counted.fire .refire j
      ∧ Fired s1 u t .refire j
      ∧ (u.valve j).levels
          = v.levels.set (r.position - 1) (l.afterIndication cls r.stamp l.indicated)
      ∧ (u.valve j).monitor.indicated = v.monitor.indicated
      ∧ (u.valve j).monitor.distinctPfi
          = v.monitor.distinctPfi + (if cls = .pfi ∧ l.pfi = false then 1 else 0)
      ∧ (u.valve j).schedule = v.schedule
      ∧ (u.group.mode = s.group.mode ∧ u.group.trips = s.group.trips)
      ∧ (∀ i, i ≠ j → i ≠ predecessor j → u.valve i = s.valve i)
      ∧ RestKept s1 u

/-- A PFI of a counting or FAULTED level that newly sets its flag and brings the distinct-PFI count to
PTv or more fires a BLOCKING or COMMUTATING valve PROTECTIVE, in every group mode, and posts
PROTECTIVE; an open quorum wait ends with the held firing issued SCHEDULED at once (R102, R104). The
zeros, Fj and Dj stay as they are, but for the Fj of that held firing (R103). That a trip cause of the
closing is taken after both firings is the model's reading (assumption 4). -/
def Obligations.ProtectiveFiringActsInEveryMode : Prop :=
  ∀ (s : State) (t : Instant) (j : Valve) (body : List Byte) (r : PulseReport) (im : Image),
    s.unit = .ready im → readMessage (0x81#8 :: body) = some (.report r) →
    classify im j t r = .pfi →
    let s1 := (s.atInstant t).superviseMessage j
    let v := s1.valve j
    let l := v.level r.position
    l.state.counting = true ∨ l.state = .faulted → l.pfi = false →
    Par.ptv j im ≤ v.monitor.distinctPfi + 1 → v.monitor.phase ≠ .conducting →
    let a := l.take .pfi .interval r.stamp s.tracker.cycle
    let fired := ((s1.setValve j { v with
      levels := v.levels.set (r.position - 1) a.level
      monitor := v.monitor.afterReport a }).fire .protective j).post (.valve j) valveProtective
    ∃ u, exec (.pulseReport t j body) s = .next u
      ∧ u = (if v.schedule.expiry.isSome then fired.issue .scheduled j else fired).settle
      ∧ Fired s1 u t .protective j
      ∧ (∀ k, u.word k (.valve j) &&& valveProtective = valveProtective)
      ∧ (u.valve j).monitor.distinctPfi = 0 ∧ (u.valve j).monitor.indicated = 0
      ∧ (v.schedule.expiry = none → (u.valve j).monitor.scheduled = v.monitor.scheduled)
      ∧ (v.schedule.expiry.isSome →
          (u.valve j).monitor.scheduled = min 65535 (v.monitor.scheduled + 1)
          ∧ u.nothingUnissued j)
      ∧ (u.valve j).schedule.zeros = v.schedule.zeros
      ∧ (u.group.mode = s.group.mode →
          (u.valve j).schedule.deadline = v.schedule.deadline
          ∧ (v.schedule.expiry = none → (u.valve j).schedule = v.schedule))
      ∧ RestKept s1 u

/-! ## The Level Table -/

/-- One interval accounting (R69, R70, R71, R72, and the stamps of R57 and R58): the interval is valid
at Qv indications; an indicated counting level gets miss count 0 and is SOUND; a counting level that
did not indicate gets a miss in a valid interval, DARK at MDARK, SUSPECT at MSUS from SOUND; other
records keep state and miss count; every flag is cleared and both counts are 0; the changes take the
next counter values in increasing position. -/
def Obligations.ClosingReviewsEveryLevel : Prop :=
  ∀ (s : State) (j : Valve) (im : Image), s.unit = .ready im →
    let v := s.valve j
    let u := s.closeInterval j
    let w := u.valve j
    let valid := Par.nv j im - Par.rv j im ≤ v.monitor.indicated
    let next (l : Level) : LevelState × Nat :=
      if l.state.counting = false then (l.state, l.miss)
      else if l.indicated then (.sound, 0)
      else if ¬ valid then (l.state, l.miss)
      else
        let miss := min (Par.mdark im) (l.miss + 1)
        (if miss = Par.mdark im then .dark
          else if Par.msus im ≤ miss ∧ l.state = .sound then .suspect else l.state, miss)
    let changed (l : Level) : Bool := decide ((next l).1 ≠ l.state)
    w.levels.length = v.levels.length
    ∧ (∀ (k : Nat) (l : Level), v.levels[k]? = some l →
        w.levels[k]? = some { l with
          state := (next l).1, miss := (next l).2, indicated := false, pfi := false
          stamp := if changed l = false then l.stamp
            else
              let c := s.counter + (v.levels.take (k + 1)).countP changed
              if s.counter ≤ 4294967295 ∧ c ≤ 4294967295 then c else 0 })
    ∧ (s.counter ≤ 4294967295 →
        u.counter = min 4294967295 (s.counter + v.levels.countP changed))
    ∧ (v.levels.any changed = true → ∀ k, u.word k (.valve j) &&& valveState = valveState)
    ∧ (v.levels.any changed = false → u.word = s.word ∧ u.handed = s.handed
        ∧ w.monitor.tally = v.monitor.tally ∧ w.monitor.margin = v.monitor.margin)
    ∧ w = { v with levels := w.levels, monitor := { v.monitor with
        tally := w.monitor.tally, margin := w.monitor.margin, indicated := 0, distinctPfi := 0 } }
    ∧ (∀ i, i ≠ j → u.valve i = s.valve i)
    ∧ u.sent = s.sent ∧ u.group = s.group ∧ u.guard = s.guard ∧ RestKept s u

/-- A change of a level's state as it is handed on (R60, R85, R86, R87): STATE posted, the tally moved,
the margin judged anew against Rv, MARGIN posted when it differs, and REDUNDANCY handed at a change
into EXHAUSTED. -/
def Obligations.LevelChangeIsTalliedAndJudged : Prop :=
  ∀ (s : State) (j : Valve) (im : Image) (old new : LevelState), s.unit = .ready im →
    let v := s.valve j
    let u := s.levelChange j (old, new)
    let w := u.valve j
    let count (t : Tally) : LevelState → Nat
      | .absent => 0 | .unproven => t.unproven | .sound => t.sound | .suspect => t.suspect
      | .dark => t.dark | .faulted => t.faulted | .retired => t.retired
    (old ≠ new → ∀ st, st ≠ .absent →
      count w.monitor.tally st = if st = old then count v.monitor.tally st - 1
        else if st = new then count v.monitor.tally st + 1 else count v.monitor.tally st)
    ∧ (w.monitor.margin = .ample ↔ w.failed < Par.rv j im)
    ∧ (w.monitor.margin = .atLimit ↔ w.failed = Par.rv j im)
    ∧ (w.monitor.margin = .exhausted ↔ Par.rv j im < w.failed)
    ∧ w.failed = w.monitor.tally.dark + w.monitor.tally.faulted + w.monitor.tally.retired
    ∧ w.unproven = w.monitor.tally.unproven
    ∧ Posted s u (.valve j)
        (valveState ||| if w.monitor.margin = v.monitor.margin then 0 else valveMargin)
    ∧ WordsKept s u (.valve j)
    ∧ u.handed = (if w.monitor.margin = .exhausted ∧ v.monitor.margin ≠ .exhausted
        then s.handed ++ [.redundancy] else s.handed)
    ∧ w = { v with monitor := { v.monitor with
        tally := w.monitor.tally, margin := w.monitor.margin } }
    ∧ (∀ i, i ≠ j → u.valve i = s.valve i)
    ∧ u.counter = s.counter ∧ u.sent = s.sent ∧ u.group = s.group ∧ RestKept s u

/-! ## The Margin Guard -/

/-- One measurement (R111, R112, R118): γ = q(((Dj − Bj) mod 2^32) × 36,000, P), at most 30,000, is the
valve's last γ and offered to the lowest of the cycle; A rises by the shortfall below GMIN up to
ADVMAX, and otherwise falls by ADVDEC down to 0. Nothing else moves. -/
def Obligations.MeasurementAdjustsTheAdvance : Prop :=
  ∀ (s : State) (j : Valve) (b d : Instant) (im : Image), s.unit = .ready im →
    let gamma := min 30000 (roundedQuotient ((d - b).toNat * 36000) s.tracker.period)
    let a := s.guard.advance
    s.measure j b d = { s with
      valves := s.valves.set j { s.valve j with lastGamma := some gamma }
      guard := { s.guard with
        advance := if gamma < Par.gmin im then min (Par.advmax im) (a + (Par.gmin im - gamma))
          else max 0 (a - Par.advdec im)
        lowest := match s.guard.lowest with
          | none => some gamma
          | some g => some (min g gamma) } }
    ∧ (a ≤ Par.advmax im → (s.measure j b d).guard.advance ≤ Par.advmax im)
    ∧ ∀ n, (s.measure j b d).guard.lowest = some n → n ≤ gamma

/-! ## Group modes and trips -/

/-- The preconditions of a deblock are checked in their order, and the first that fails gives the reason;
READINESS carries the lowest valve that fails (R126). -/
def Obligations.DeblockChecksInOrder : Prop :=
  ∀ s : State,
    let within (j : Valve) := (s.valve j).failed + (s.valve j).unproven ≤ s.par (Par.rv j)
    (s.deblockFault = none ↔ s.fit)
    ∧ (s.deblockFault = some .notReady ↔ s.isReady = false)
    ∧ (s.deblockFault = some .sync ↔ s.isReady = true ∧ s.tracker.sync ≠ .locked)
    ∧ (s.deblockFault = some .trip ↔
        s.isReady = true ∧ s.tracker.sync = .locked ∧ s.group.trips ≠ {})
    ∧ (s.deblockFault = some .channel ↔
        s.isReady = true ∧ s.tracker.sync = .locked ∧ s.group.trips = {}
          ∧ ∃ j, (s.valve j).channel.up = false)
    ∧ ∀ j, s.deblockFault = some (.readiness j) ↔
        s.isReady = true ∧ s.tracker.sync = .locked ∧ s.group.trips = {}
          ∧ (∀ i, (s.valve i).channel.up = true) ∧ ¬ within j ∧ ∀ i, i < j → within i

/-- A requested mode judged against the mode held (R124, R125, R126, R131, R134): the table of R124, the
entry to BLOCKED with its cancelled schedules, stopped gating and A at 0, DEBLOCKING with its origin,
and the refusals. -/
def Obligations.RequestedModeIsJudged : Prop :=
  ∀ s : State,
    let blocked : State := { s with
      valves := if s.group.mode = .running then Vector.ofFn fun j =>
          { s.valve j with schedule := { (s.valve j).schedule with
            fireAt := none, expiry := none, deadline := none } }
        else s.valves
      group := { s.group with
        mode := .blocked, origin := none, lastUpperY := none, lastUpperD := none, legs := none
        gatingExpiry := none }
      guard := { s.guard with advance := 0 } }
    let refused (why : RefusalReason) : State :=
      ({ s with group := { s.group with refusal := some why } }).post .mode modeRefused
    let deblocking (o : Origin) : State :=
      ({ s with group := { s.group with mode := .deblocking, origin := some o } }).post .mode
        modeDeblocking
    (s.isReady = false →
      s.judgeRequest .block = s ∧ s.judgeRequest .run = refused .notReady
      ∧ s.judgeRequest .bypass = refused .notReady)
    ∧ (s.isReady = true →
      (s.group.mode = .blocked → s.judgeRequest .block = s)
      ∧ (s.group.mode ≠ .blocked → s.judgeRequest .block = blocked.post .mode modeBlocked)
      ∧ (s.group.mode = .bypass → s.judgeRequest .bypass = s)
      ∧ (s.group.mode ≠ .bypass → s.judgeRequest .bypass = s.enterBypass)
      ∧ (s.group.mode = .deblocking ∨ s.group.mode = .running → s.judgeRequest .run = s)
      ∧ (s.group.mode = .blocked → s.fit → s.judgeRequest .run = deblocking .fromBlocked)
      ∧ (s.group.mode = .bypass → s.fit → s.judgeRequest .run = deblocking .fromBypass)
      ∧ ∀ why, s.group.mode = .blocked ∨ s.group.mode = .bypass → s.deblockFault = some why →
          s.judgeRequest .run = refused why)

/-- The entry to BYPASS (R34, R119, R132, R133, R134): schedules cancelled out of RUNNING, the legs of
the last upper valves, {1,4} where none is recorded, one BYPASS message to each of the four leg
valves in some order, each upper one then its bridge's last upper valve, the gating expiry 6,000 cdeg on,
BYPASS posted, A held. The refusal stays; a cause that a closing hands joins the set without action
(R137; assumption 4). No other word but those of the leg valves moves. The order is a free choice
(assumption 5). -/
def Obligations.BypassFiresItsLegs : Prop :=
  ∀ s : State,
    let u := s.enterBypass
    let leg (upper : Option Upper) (a b c : Valve × Valve) : Valve × Valve :=
      match upper with
      | none => a
      | some .one => a
      | some .three => b
      | some .five => c
    let y := leg s.group.lastUpperY (0, 6) (4, 10) (8, 2)
    let d := leg s.group.lastUpperD (1, 7) (5, 11) (9, 3)
    let legs := [y.1, y.2, d.1, d.2]
    let cancelled : Vector ValveRecord 12 := if s.group.mode = .running then Vector.ofFn fun j =>
        { s.valve j with schedule := { (s.valve j).schedule with
          fireAt := none, expiry := none, deadline := none } }
      else s.valves
    let expiry := some (s.timebase + BitVec.ofNat 32 (roundedQuotient (6000 * s.tracker.period) 36000))
    (∃ l, u.group.legs = some l ∧ l.valves = legs
      ∧ u.group = { s.group with
          mode := .bypass, origin := none, legs := some l, gatingExpiry := expiry
          lastUpperY := some (s.group.lastUpperY.getD .one)
          lastUpperD := some (s.group.lastUpperD.getD .one)
          trips := u.group.trips }
      ∧ ∃ order : List Valve, order.Perm legs
        ∧ u.sent = (order.map fun j => s.fireSent s.timebase j).reverse ++ s.sent
        ∧ (let fired := order.foldl (fun w j => w.fire .bypass j) { s with
            valves := cancelled
            choices := s.choices.tail
            group := { s.group with
              mode := .bypass, origin := none, legs := some l, gatingExpiry := none } }
          let posted :=
            ({ fired with group := { fired.group with gatingExpiry := expiry } }).post .mode modeBypass
          u = fired.handed.foldl State.addTrip { posted with handed := [] }))
    ∧ (∀ j ∈ legs, Fired s u s.timebase .bypass j)
    ∧ (∀ j, j ∉ legs → u.valve j = cancelled[j])
    ∧ (s.group.mode = .running → ∀ j, (u.valve j).schedule.deadline = none ∧ u.nothingUnissued j)
    ∧ Posted s u .mode modeBypass
    ∧ (u.group.trips = s.group.trips → ∀ k, u.word k .trip = s.word k .trip)
    ∧ (∀ k src, src ≠ .mode → src ≠ .trip → (∀ j ∈ legs, src ≠ .valve j) →
        u.word k src = s.word k src)
    ∧ u.guard = s.guard ∧ u.tracker = s.tracker ∧ RestKept s u

/-- The gating expiry reached fires the four leg valves BYPASS and sets the next expiry from the one
reached (R135); an upper leg valve is its bridge's last upper valve outside BLOCKED (R132). What moves is
what the four fire messages move (R88; FireMessageActsOnItsValve), and REDUNDANCY, which a closing may hand:
taken after all four messages (assumption 4), it joins the trip cause set, and in DEBLOCKING it ends the
gating in BLOCKED with refusal TRIP (R131, R137). The order of the four messages is a free choice
(assumption 5). -/
def Obligations.GatingFiresTheLegsAgain : Prop :=
  ∀ (s : State) (t e : Instant) (l : Legs), s.live → s.group.legs = some l →
    s.group.gatingExpiry = some e → reached t e = true → s.group.mode ≠ .running →
    let upper (leg : Leg) : Upper := match leg with
      | .leg14 => .one
      | .leg36 => .three
      | .leg52 => .five
    let noted (leg : Leg) (last : Option Upper) : Option Upper :=
      if s.group.mode = .blocked then last else some (upper leg)
    let redundancy := s.group.trips.add .redundancy
    let expiry := some (e + BitVec.ofNat 32 (roundedQuotient (6000 * s.tracker.period) 36000))
    ∃ u, exec (.bypassGating t) s = .next u
      ∧ (∀ j ∈ l.valves, Fired s u t .bypass j)
      ∧ (∀ j, j ∉ l.valves → u.valve j = s.valve j)
      ∧ (∃ order : List Valve, order.Perm l.valves
          ∧ u.sent = (order.map fun j => s.fireSent t j).reverse ++ s.sent
          ∧ (let fired := order.foldl (fun w j => w.fire .bypass j)
              { s.atInstant t with choices := s.choices.tail }
            u = ({ fired with group := { fired.group with gatingExpiry := expiry } }).settle))
      ∧ (u.group.trips = s.group.trips →
          ∀ k src, (∀ j ∈ l.valves, src ≠ .valve j) → u.word k src = s.word k src)
      ∧ (∀ k src, src ≠ .trip → src ≠ .mode → (∀ j ∈ l.valves, src ≠ .valve j) →
          u.word k src = s.word k src)
      ∧ (u.group.trips = s.group.trips ∨ u.group.trips = redundancy)
      ∧ ((u.guard = s.guard ∧ u.group = { s.group with
            gatingExpiry := expiry
            lastUpperY := noted l.y s.group.lastUpperY
            lastUpperD := noted l.d s.group.lastUpperD
            trips := u.group.trips })
        ∨ (s.group.mode = .deblocking ∧ s.group.trips.redundancy = false
          ∧ u.guard = { s.guard with advance := 0 }
          ∧ u.group = { s.group with
              mode := .blocked, origin := none, trips := redundancy, refusal := some .trip
              lastUpperY := none, lastUpperD := none, legs := none, gatingExpiry := none }))
      ∧ (s.group.mode = .deblocking → s.group.trips.redundancy = false →
          u.group.trips = redundancy → u.group.mode = .blocked)
      ∧ u.tracker = s.tracker ∧ u.choices = s.choices.tail ∧ RestKept (s.atInstant t) u

/-- A handed trip cause (R136, R137): one already held, or SYNC_LOST in BLOCKED, changes nothing; a new
one joins the set, posts its TRIP bit and acts at once by the mode held. SYNC_LOST beside a BLOCK taken
after it at the same tick is latched and acted on in BLOCKED, where there is no action (R15, R138); any
other frame of the tick, RUN, BYPASS, STANDBY or damaged, defers nothing. Such a BLOCK is one in the queue
behind commands of that tick alone, intact, addressed, ACTIVE, and on SEL as the frames and silence limits
before it leave the selection, which while the group is deblocked no other command moves. That the events
of one tick wait in the queue together is assumption 25. The causes handed within a command are taken one
after another, in their order, after its effects (R138; assumption 4). -/
def Obligations.TripCauseLatchesAndActs : Prop :=
  (∀ (s : State) (c : TripCause),
    let added : State := ({ s with group := { s.group with trips := s.group.trips.add c } }).post
      .trip c.bit
    let unacted := c = .syncLost ∧ s.blockFollows = true
    (s.group.trips.has c = true → s.latch c = s)
    ∧ (c = .syncLost → s.group.mode = .blocked → s.latch c = s)
    ∧ (s.group.trips.has c = false → ¬ (c = .syncLost ∧ s.group.mode = .blocked) →
      (unacted → s.latch c = added)
      ∧ (¬ unacted →
        (s.group.mode = .blocked ∨ s.group.mode = .bypass → s.latch c = added)
        ∧ (s.group.mode = .deblocking → s.latch c = added.enterBlocked.refuse .trip)
        ∧ (s.group.mode = .running → s.par Par.byptrip = 1 ∨ c = .controlLoss →
            s.latch c = added.enterBypass)
        ∧ (s.group.mode = .running → s.par Par.byptrip ≠ 1 → c ≠ .controlLoss → s.latch c = added))
      ∧ (s.latch c).group.trips.has c = true)
    ∧ (∀ c', (s.group.trips.add c).has c' = (decide (c' = c) || s.group.trips.has c'))
    ∧ s.group.trips.has c = (match c with
        | .redundancy => s.group.trips.redundancy
        | .channel => s.group.trips.channel
        | .syncLost => s.group.trips.syncLost
        | .persistentCf => s.group.trips.persistentCf
        | .controlLoss => s.group.trips.controlLoss)
    ∧ s.settle = s.handed.foldl State.latch { s with handed := [] })
  ∧ (∀ s : State, s.blockFollows = true ↔
      ∃ (before after : List Instr) (o : Instr) (l : Link) (f : OrderFrame),
        s.pending = before ++ o :: after ∧ (∀ i ∈ before ++ [o], tickOf i = some s.timebase)
        ∧ (o = .orderFrame s.timebase l f ∨ o = .discardedFrameArrives s.timebase l (orderBytes f))
        ∧ orderIntact f ∧ s.addressed f.address ∧ f.role = .active ∧ f.mode = 0
        ∧ ((before.foldl (fun w i => w.linksAfter i) s).heard s.timebase l .active).sel = l)
  ∧ ∀ (s u : State) (i : Instr), s.isReady = true → s.group.mode ≠ .blocked →
      tickOf i = some s.timebase → exec i s = .next u →
      u.sel = (s.linksAfter i).sel
      ∧ ∀ l, (u.link l).role = ((s.linksAfter i).link l).role
        ∧ (u.link l).silent = ((s.linksAfter i).link l).silent
        ∧ (u.link l).lastValid = ((s.linksAfter i).link l).lastValid

/-- The clear-trip flag in BLOCKED removes each cause whose condition no longer holds, and in every
other mode nothing; it posts no event (R139). -/
def Obligations.ClearTripJudgesEachCause : Prop :=
  ∀ s : State,
    (s.group.mode ≠ .blocked → s.clearTrips = s)
    ∧ (s.group.mode = .blocked →
      s.clearTrips = { s with group := { s.group with trips := s.clearTrips.group.trips } }
      ∧ (s.clearTrips.group.trips.redundancy = true ↔
          s.group.trips.redundancy = true ∧ ∃ j, (s.valve j).monitor.margin = .exhausted)
      ∧ (s.clearTrips.group.trips.channel = true ↔
          s.group.trips.channel = true ∧ ∃ j, (s.valve j).channel.up = false)
      ∧ (s.clearTrips.group.trips.syncLost = true ↔
          s.group.trips.syncLost = true ∧ s.tracker.sync = .lost)
      ∧ s.clearTrips.group.trips.persistentCf = false
      ∧ s.clearTrips.group.trips.controlLoss = false)

/-- The no-action limit, last taken instant + TNOACT × 1,000 ticks, reached for the first time hands
CONTROL_LOSS when the group is deblocked, and nothing in BLOCKED; a limit passed, or not yet reached,
hands nothing (R149). -/
def Obligations.ControlLossIsHandedOnce : Prop :=
  ∀ (s : State) (t t0 : Instant) (im : Image), s.unit = .ready im → s.lastTaken = some t0 →
    let due := reached t (after t0 (Par.tnoact im * 1000)) = true ∧ s.limitPassed = false
    let passed : State := { s.atInstant t with limitPassed := true }
    (due → s.group.mode = .blocked → exec (.controlLoss t) s = .next passed)
    ∧ (due → s.group.mode ≠ .blocked → exec (.controlLoss t) s = .next (passed.latch .controlLoss))
    ∧ (¬ due → exec (.controlLoss t) s = .next (s.atInstant t))

/-! ## Converter control links -/

/-- The checks of a frame in their order (R142, R143): a wrong CRC, kind, length or requested mode is an
error, a wrong address a foreign frame. A discarded frame raises its count, an error posts FORMAT, and
nothing else moves. The CRC starts from FFFF hex and takes each byte most significant bit first with the
polynomial x^16 + x^12 + x^5 + 1; its high byte is sent first (00_scope.md, Bytes and checks). -/
def Obligations.FramesAreChecked : Prop :=
  (crc16 [] = 0xFFFF#16
    ∧ (∀ (bytes : List Byte) (b : Byte), crc16 (bytes ++ [b])
        = [7, 6, 5, 4, 3, 2, 1, 0].foldl (fun (c : Word16) (i : Nat) =>
            if c.msb = b.getLsbD i then c <<< 1 else (c <<< 1) ^^^ 0x1021#16) (crc16 bytes))
    ∧ ∀ w : Word16, bytes2 w = [w.extractLsb' 8 8, w.extractLsb' 0 8])
  ∧ (∀ (g : Option Nat) (bytes : List Byte),
    let crcHolds := 3 ≤ bytes.length
      ∧ bytes2 (crc16 (bytes.take (bytes.length - 2))) = bytes.drop (bytes.length - 2)
    let b0 := bytes.getD 0 0
    let b1 := bytes.getD 1 0
    let addressHolds := ∀ a, g = some a → (b0 >>> 2).toNat = a
    let code := (b1 &&& 0x0F#8).toNat
    let shapeHolds := ((b0 &&& 3#8) = 0#8 ∧ bytes.length = 6 ∧ (b1 &&& 3#8) ≠ 3#8)
      ∨ ((b0 &&& 3#8) = 1#8 ∧ ((bytes.length = 6 ∧ code ∈ [1, 3, 5, 6, 7, 8])
          ∨ (bytes.length = 5 ∧ code = 2) ∨ (bytes.length = 8 ∧ code = 4)
          ∨ (bytes.length = 22 ∧ code = 9) ∨ (bytes.length = 4 ∧ code ∈ [10, 11, 12])))
    (checkFrame g bytes = .foreign ↔ crcHolds ∧ ¬ addressHolds)
    ∧ (checkFrame g bytes = .valid ↔ crcHolds ∧ addressHolds ∧ shapeHolds))
  ∧ ∀ (s : State) (t : Instant) (l : Link) (bytes : List Byte) (f : OrderFrame), s.live →
    let foreign := (s.atInstant t).modLink l fun k =>
      { k with foreign := min 65535 (k.foreign + 1) }
    let error := ((s.atInstant t).modLink l fun k =>
      { k with errors := min 65535 (k.errors + 1) }).post .link linkFormat
    (checkFrame s.gaddr bytes = .foreign →
      exec (.discardedFrameArrives t l bytes) s = .next foreign)
    ∧ (checkFrame s.gaddr bytes = .error →
      exec (.discardedFrameArrives t l bytes) s = .next error)
    ∧ (checkFrame s.gaddr (orderBytes f) = .foreign →
      exec (.orderFrame t l f) s = .next foreign)
    ∧ (checkFrame s.gaddr (orderBytes f) = .error → exec (.orderFrame t l f) s = .next error)

/-- The bytes of an ORDER or SERVICE frame stand as its layout gives them, and read back as that frame,
with every field at every value the layout admits; the frame passes the checks exactly when its CRC
holds, its address is the one in force and an order's mode is not 3 (Frame layouts, Service frames and
replies, R142, R143). So bytes that arrive as a frame and pass every check are served as the frame they
spell (assumption 9). -/
def Obligations.FramesReadBack : Prop :=
  (∀ f : OrderFrame,
    let role : BitVec 1 := if f.role = .active then 1 else 0
    orderBytes f = [f.address ++ (0 : BitVec 2),
      role ++ BitVec.ofBool f.clearTrip ++ f.spare ++ f.mode,
      f.alpha.extractLsb' 8 8, f.alpha.extractLsb' 0 8,
      f.crc.extractLsb' 8 8, f.crc.extractLsb' 0 8])
  ∧ (∀ (h : ServiceHead) (r : Request),
    let role : BitVec 1 := if h.role = .active then 1 else 0
    let frame (code : BitVec 4) (args : List Byte) : List Byte :=
      (h.address ++ (1 : BitVec 2)) :: (role ++ h.spare ++ code)
        :: (args ++ [h.crc.extractLsb' 8 8, h.crc.extractLsb' 0 8])
    serviceBytes h r = (match r with
      | .lookUpLevel j p => frame 1 [j, p]
      | .lookUpValve j => frame 2 [j]
      | .seek j p => frame 3 [j, p]
      | .walk since => frame 4 [since.extractLsb' 24 8, since.extractLsb' 16 8,
          since.extractLsb' 8 8, since.extractLsb' 0 8]
      | .retire j p => frame 5 [j, p]
      | .restore j p => frame 6 [j, p]
      | .clearCounts j p => frame 7 [j, p]
      | .configRead a n => frame 8 [a, n]
      | .configWrite a n data => frame 9 (a :: n :: data.toList.flatMap fun w =>
          [w.extractLsb' 8 8, w.extractLsb' 0 8])
      | .configApply => frame 10 []
      | .configStore => frame 11 []
      | .reset => frame 12 []))
  ∧ (∀ f : OrderFrame, readOrder (orderBytes f) = some f)
  ∧ (∀ (h : ServiceHead) (r : Request), readService (serviceBytes h r) = some (h, r))
  ∧ (∀ (s : State) (f : OrderFrame), checkFrame s.gaddr (orderBytes f) = .valid ↔
      orderIntact f ∧ s.addressed f.address ∧ f.mode ≠ 3)
  ∧ (∀ (s : State) (h : ServiceHead) (r : Request),
      checkFrame s.gaddr (serviceBytes h r) = .valid ↔ serviceIntact h r ∧ s.addressed h.address)
  ∧ (∀ (s : State) (t : Instant) (l : Link) (f : OrderFrame),
      exec (.discardedFrameArrives t l (orderBytes f)) s = exec (.orderFrame t l f) s)
  ∧ ∀ (s : State) (t : Instant) (l : Link) (h : ServiceHead) (r : Request),
      exec (.discardedFrameArrives t l (serviceBytes h r)) s = exec (r.command t l h) s

/-- A valid frame acts on its link and then on the selection (R144, R146): the last-valid time, the role
and the cleared silence flag; SEL moves to an unselected link that claims ACTIVE when SEL's last role
is STANDBY or SEL is silent, with SWITCHED, and else DUAL_ACTIVE is posted. -/
def Obligations.ValidFrameActsOnLinkAndSelection : Prop :=
  ∀ (s : State) (t : Instant) (l : Link) (r : Role),
    let acted := (s.atInstant t).modLink l fun k =>
      { k with lastValid := some t, role := r, silent := false }
    (l = s.sel ∨ r = .standby → s.heard t l r = acted)
    ∧ (l ≠ s.sel → r = .active → (s.link s.sel).role = .standby ∨ (s.link s.sel).silent = true →
      s.heard t l r = ({ acted with sel := l }).post .link linkSwitched)
    ∧ (l ≠ s.sel → r = .active → (s.link s.sel).role = .active → (s.link s.sel).silent = false →
      s.heard t l r = acted.post .link linkDualActive)

/-- A valid ORDER frame (R124, R148, R149, R150): taken when it claims ACTIVE on SEL after the switch
rule, it replaces the active order, starts a new no-action limit, and hands the clear-trip flag and
then the requested mode; taken or not, it is answered after its effects, any trip cause of an entry to
BYPASS having been taken before the reply (assumption 4). -/
def Obligations.ValidOrderIsTakenOnTheSelectedLink : Prop :=
  ∀ (s : State) (t : Instant) (l : Link) (f : OrderFrame), s.live → orderIntact f →
    s.addressed f.address → f.mode ≠ 3 →
    let s1 := s.heard t l f.role
    let requested : Requested := if f.mode = 1 then .run else if f.mode = 2 then .bypass else .block
    let s2 : State := { s1 with
      order := { alpha := f.alpha, requested := requested }, lastTaken := some t
      limitPassed := false }
    (f.role = .active → s1.sel = l →
      exec (.orderFrame t l f) s
        = .next ((((if f.clearTrip then s2.clearTrips else s2).judgeRequest
            requested).settle).replyStatus l f.address))
    ∧ (f.role = .standby ∨ s1.sel ≠ l →
      exec (.orderFrame t l f) s = .next (s1.replyStatus l f.address))

/-- Replies (R150, R151, R153, R155, R157): a reply goes on the line, or waits behind the one there; with
two waiting it is not formed and the link's error count rises. A status frame takes the
highest-priority pending word out of its link's set; a service reply takes none, and carries the
stored result, which is then none. A sent reply leaves, and the next goes on the line. -/
def Obligations.RepliesQueueInOrder : Prop :=
  ∀ (s : State) (t : Instant) (l : Link) (a : BitVec 6) (code : BitVec 4) (result : ServiceResult)
    (data : List Byte),
    let k := s.link l
    let dropped := s.modLink l fun k => { k with errors := min 65535 (k.errors + 1) }
    let reply : Reply := .service
      { address := s.replyAddress a, code := code, stored := s.stored, result := result
        counter := s.counter, data := data }
    (2 ≤ k.waiting.length →
      s.replyStatus l a = dropped ∧ s.replyService l a code result data = dropped)
    ∧ (k.waiting.length < 2 → k.onLine = none →
      s.replyService l a code result data
        = { s.modLink l fun k => { k with onLine := some reply } with stored := .none })
    ∧ (k.waiting.length < 2 → k.onLine.isSome →
      s.replyService l a code result data
        = { s.modLink l fun k => { k with waiting := k.waiting ++ [reply] } with stored := .none })
    ∧ (k.waiting.length < 2 →
      ∃ f, (s.replyStatus l a = s.modLink l fun k => { k with
            attention := ((s.replyStatus l a).link l).attention
            onLine := if k.onLine = none then some (.status f) else k.onLine
            waiting := if k.onLine = none then k.waiting else k.waiting ++ [.status f] })
        ∧ f = s.statusFrame l a
        ∧ (∀ src, f.attention = some (src, k.pendingWord src) ∧ k.pendingWord src ≠ 0
            ↔ k.pendingWord src ≠ 0 ∧ ∀ src', src'.code < src.code → k.pendingWord src' = 0)
        ∧ (f.attention = none ↔ ∀ src, k.pendingWord src = 0)
        ∧ (∀ src w, f.attention = some (src, w) → (s.replyStatus l a).word l src = 0)
        ∧ ∀ src, (∀ w, f.attention ≠ some (src, w)) →
            (s.replyStatus l a).word l src = s.word l src)
    ∧ (s.live → ∀ r, k.onLine = some r →
      exec (.replySent t l) s = .next { (s.atInstant t).modLink l fun k =>
          { k with onLine := k.waiting.head?, waiting := k.waiting.tail } with
          sent := .reply l r.bytes :: s.sent })
    ∧ (s.live → k.onLine = none → exec (.replySent t l) s = .next (s.atInstant t))

/-- A status frame has 49 bytes: every field and every code stands at its place with its owner's value,
bits not named are 0, and the CRC closes it (R150, Frame layouts; a part held in reset, which sends
none, is given LOADING's code). The event bits of the attention word are those of R152, from bit 0. -/
def Obligations.StatusFrameIsLaidOut : Prop :=
  (∀ c : TripCause, c.bit = (match c with
      | .redundancy => 1#12
      | .channel => 2#12
      | .syncLost => 4#12
      | .persistentCf => 8#12
      | .controlLoss => 16#12))
  ∧ [syncLocked, syncHoldover, syncLost, syncSeeking, syncDisturbance] = [1#12, 2, 4, 8, 16]
  ∧ [modeBlocked, modeDeblocking, modeRunning, modeBypass, modeRefused, modeConfigApplied]
      = [1#12, 2, 4, 8, 16, 32]
  ∧ [linkSwitched, linkDualActive, linkASilent, linkBSilent, linkFormat] = [1#12, 2, 4, 8, 16]
  ∧ [valveState, valveMargin, valveProtective, valveCfail, valveForced, valveLate, valveSlip,
      valveChannel, valveNoise] = [1#12, 2, 4, 8, 16, 32, 64, 128, 256]
  ∧ ∀ (s : State) (l : Link) (a : BitVec 6),
    let f := s.statusFrame l a
    let b := f.bytes
    let at2 (n : Nat) : BitVec 16 := (b.getD n 0) ++ (b.getD (n + 1) 0)
    let bit := BitVec.ofBool
    let active (k : Link) := bit (decide ((s.link k).role = .active))
    let unit : BitVec 2 := match s.unit with
      | .ready _ => 2
      | .configFault => 1
      | .loading _ => 0
      | .held _ => 0
    let mode : BitVec 2 := match s.group.mode with
      | .blocked => 0
      | .deblocking => 1
      | .running => 2
      | .bypass => 3
    let sync : BitVec 2 := match s.tracker.sync with
      | .seeking => 0
      | .locked => 1
      | .holdover => 2
      | .lost => 3
    let cause : BitVec 2 := match s.startCause with
      | .power => 0
      | .pin => 1
      | .service => 2
    let refusal : BitVec 3 := match s.group.refusal with
      | none => 0
      | some .notReady => 1
      | some .sync => 2
      | some .trip => 3
      | some .channel => 4
      | some (.readiness _) => 5
    let trips := s.group.trips
    b.length = 49
    ∧ bytes2 (crc16 (b.take 47)) = b.drop 47
    ∧ (∀ im, s.unit = .ready im → b.getD 0 0 = BitVec.ofNat 6 (Par.gaddr im) ++ (2 : BitVec 2))
    ∧ (s.isReady = false → b.getD 0 0 = a ++ (2 : BitVec 2))
    ∧ b.getD 1 0 = unit ++ mode ++ sync ++ cause
    ∧ b.getD 2 0 = bit (decide (s.sel = .b)) ++ active .a ++ active .b
        ++ bit s.linkA.silent ++ bit s.linkB.silent ++ refusal
    ∧ b.getD 3 0 = bit trips.redundancy ++ bit trips.channel ++ bit trips.syncLost
        ++ bit trips.persistentCf ++ bit trips.controlLoss ++ (0 : BitVec 3)
    ∧ (∀ j, s.group.refusal = some (.readiness j) → (b.getD 4 0).toNat = j.val + 1)
    ∧ ((∀ j, s.group.refusal ≠ some (.readiness j)) → b.getD 4 0 = 0)
    ∧ at2 5 = BitVec.ofNat 16 s.guard.advance
    ∧ at2 7 = (match s.guard.reportedLow with | none => 0xFFFF#16 | some g => BitVec.ofNat 16 g)
    ∧ at2 9 = s.tracker.cycle ∧ at2 11 = BitVec.ofNat 16 s.tracker.disturbances
    ∧ at2 13 = BitVec.ofNat 16 (s.link l).errors ∧ at2 15 = BitVec.ofNat 16 (s.link l).foreign
    ∧ at2 17 ++ at2 19 = BitVec.ofNat 32 s.counter
    ∧ (∀ j : Valve, at2 (21 + 2 * j.val)
        = BitVec.ofNat 7 (s.valve j).failed ++ BitVec.ofNat 7 (s.valve j).unproven
          ++ (match (s.valve j).monitor.margin with
              | .ample => 0#2 | .atLimit => 1#2 | .exhausted => 2#2))
    ∧ (f.attention = none → at2 45 = 0)
    ∧ ∀ src w, f.attention = some (src, w) →
        at2 45 = (match src with
          | .trip => 0#4
          | .sync => 1#4
          | .mode => 2#4
          | .link => 3#4
          | .valve j => BitVec.ofNat 4 (3 + (j.val + 1))) ++ w

/-- A link that is not silent becomes silent when its limit is reached, TSIL × 1,000 ticks after its last
valid frame, or 40,000 ticks while no configuration is in force, and its event is posted; otherwise
nothing happens (R145). -/
def Obligations.SilenceLimitSilencesTheLink : Prop :=
  ∀ (s : State) (t : Instant) (l : Link), s.live →
    let n := match s.unit with | .ready im => Par.tsil im * 1000 | _ => 40000
    ((s.link l).overdue t n = true →
      exec (.linkSilence t l) s
        = .next (((s.atInstant t).modLink l fun k => { k with silent := true }).post .link
            (match l with | .a => linkASilent | .b => linkBSilent)))
    ∧ ((s.link l).overdue t n = false → exec (.linkSilence t l) s = .next (s.atInstant t))

/-! ## Service requests -/

/-- The reading requests that change nothing, on either link in either role (R156, R158, R161): LOOK UP
LEVEL outside READY is NO_CONFIG, out of range or ABSENT BAD_ADDRESS, and else the 18 bytes of the
record; LOOK UP VALVE in every unit state the 77 bytes of the valve record with the Nv, Rv and PTv in
force, or BAD_ADDRESS; CONFIG READ a, n and the n words, with its two refusals. The layouts of the reply,
of the level record and of the valve record follow Service frames and replies, every field and code at
its place. The model's own in them: the unnamed bits of the reply's head (assumption 10); of the valve
record the channel state's codes (assumption 8) and, assumption 24, the margin state's codes, the unnamed
bits of the presence word and the 0 of an absent part. -/
def Obligations.LookUpsAnswerFromTheState : Prop :=
  (∀ (s : State) (t : Instant) (l : Link) (h : ServiceHead), s.live → s.addressed h.address →
    let s1 := s.heard t l h.role
    let answer (code : BitVec 4) (result : ServiceResult) (data : List Byte) :
        Host.Outcome State Fault Refusal := .next (s1.replyService l h.address code result data)
    (∀ j p : Byte, serviceIntact h (.lookUpLevel j p) →
      let run := exec (.lookUpLevel t l h j p) s
      (s.isReady = false → run = answer 1 .noConfig [])
      ∧ (s.isReady = true → (∀ v : Valve, j.toNat ≠ v.val + 1) ∨ p.toNat = 0 ∨ 80 < p.toNat →
          run = answer 1 .badAddress [])
      ∧ ∀ v : Valve, s.isReady = true → j.toNat = v.val + 1 → 1 ≤ p.toNat → p.toNat ≤ 80 →
        let record := (s.valve v).level p.toNat
        (record.state = .absent → run = answer 1 .badAddress [])
        ∧ (record.state ≠ .absent → run = answer 1 .ok (record.bytes j.toNat p.toNat))
        ∧ (record.bytes j.toNat p.toNat).length = 18)
    ∧ (∀ j : Byte, serviceIntact h (.lookUpValve j) →
      let run := exec (.lookUpValve t l h j) s
      ((∀ v : Valve, j.toNat ≠ v.val + 1) → run = answer 2 .badAddress [])
      ∧ ∀ v : Valve, j.toNat = v.val + 1 →
        let data := (s.valve v).bytes v (s.par (Par.nv v)) (s.par (Par.rv v)) (s.par (Par.ptv v))
        run = answer 2 .ok data ∧ data.length = 77)
    ∧ (∀ a n : Byte, serviceIntact h (.configRead a n) →
      let run := exec (.configRead t l h a n) s
      (s.isReady = false → run = answer 8 .noConfig [])
      ∧ ∀ im, s.unit = .ready im →
        (n.toNat = 0 ∨ 8 < n.toNat ∨ 64 < a.toNat + n.toNat → run = answer 8 .badAddress [])
        ∧ (1 ≤ n.toNat → n.toNat ≤ 8 → a.toNat + n.toNat ≤ 64 →
          run = answer 8 .ok (a :: n :: (List.range n.toNat).flatMap fun k =>
            bytes2 (BitVec.ofNat 16 (imageWord im (a.toNat + k)))))))
  ∧ (∀ r : ServiceReply,
    let b := r.bytes
    let stored : BitVec 2 := match r.stored with
      | .none => 0
      | .stored => 1
      | .failed => 2
    let result : BitVec 4 := match r.result with
      | .ok => 0
      | .notActive => 1
      | .badAddress => 2
      | .wrongMode => 3
      | .wouldExhaust => 4
      | .busy => 5
      | .invalidImage => 6
      | .noConfig => 7
    b.length = 9 + r.data.length
    ∧ b.getD 0 0 = r.address ++ (3 : BitVec 2) ∧ b.getD 1 0 = (0 : BitVec 4) ++ r.code
    ∧ b.getD 2 0 = stored ++ (0 : BitVec 2) ++ result
    ∧ b.getD 3 0 ++ b.getD 4 0 ++ b.getD 5 0 ++ b.getD 6 0 = BitVec.ofNat 32 r.counter
    ∧ (b.drop 7).take r.data.length = r.data
    ∧ b.drop (7 + r.data.length) = bytes2 (crc16 (b.take (7 + r.data.length))))
  ∧ (∀ (l : Level) (j p : Nat),
    let b := l.bytes j p
    let byte (n : Nat) : Byte := BitVec.ofNat 8 n
    let state : Byte := match l.state with
      | .absent => 0
      | .unproven => 1
      | .sound => 2
      | .suspect => 3
      | .dark => 4
      | .faulted => 5
      | .retired => 6
    let kind : BitVec 2 := match l.lastReport with
      | none => 0
      | some (.ind, _) => 1
      | some (.pfi, _) => 2
      | some (.lft, _) => 3
    let bit := BitVec.ofBool
    b.length = 18
    ∧ b.take 4 = [byte j, byte p, state, byte l.miss]
    ∧ b.getD 4 0 = bit l.indicated ++ bit l.pfi ++ bit l.firstFault.isSome
        ++ bit l.lastReport.isSome ++ bit l.retiredBy.isSome
        ++ bit (decide (l.retiredBy = some .b)) ++ kind
    ∧ (b.drop 5).take 3 = [byte l.pfiCount, byte l.faultCount, byte l.strayCount]
    ∧ b.getD 8 0 ++ b.getD 9 0 = l.firstFault.getD 0
    ∧ b.getD 10 0 ++ b.getD 11 0 ++ b.getD 12 0 ++ b.getD 13 0
        = (match l.lastReport with
            | none => 0
            | some (_, at') => at' : Instant)
    ∧ b.getD 14 0 ++ b.getD 15 0 ++ b.getD 16 0 ++ b.getD 17 0 = BitVec.ofNat 32 l.stamp)
  ∧ ∀ (v : ValveRecord) (j : Valve) (nv rv ptv : Nat),
    let b := v.bytes j nv rv ptv
    let byte (n : Nat) : Byte := BitVec.ofNat 8 n
    let at2 (n : Nat) : BitVec 16 := b.getD n 0 ++ b.getD (n + 1) 0
    let at4 (n : Nat) : BitVec 32 := at2 n ++ at2 (n + 2)
    let count (n c : Nat) := at2 n = BitVec.ofNat 16 c
    let m := v.monitor
    let c := v.schedule
    let margin : Byte := match m.margin with
      | .ample => 0
      | .atLimit => 1
      | .exhausted => 2
    let phase : Byte := match m.phase with
      | .blocking => 0
      | .conducting => 1
      | .commutating => 2
    let bit := BitVec.ofBool
    b.length = 77
    ∧ b.take 4 = [byte (j.val + 1), byte nv, byte rv, byte ptv]
    ∧ (b.drop 4).take 6 = [byte m.tally.unproven, byte m.tally.sound, byte m.tally.suspect,
        byte m.tally.dark, byte m.tally.faulted, byte m.tally.retired]
    ∧ (b.drop 10).take 5 = [margin, phase, byte m.indicated, byte m.distinctPfi,
        Config.channelStateCode v.channel.up]
    ∧ at2 15 = bit c.fireAt.isSome ++ bit c.expiry.isSome ++ bit c.deadline.isSome
        ++ bit m.blockBack.isSome ++ bit m.lastFire.isSome ++ bit v.lastGamma.isSome
        ++ (0 : BitVec 10)
    ∧ b.getD 17 0 = byte c.zeros.length
    ∧ at4 18 = c.zeros.getD 0 0 ∧ at4 22 = c.zeros.getD 1 0 ∧ at4 26 = c.zero
    ∧ count 30 c.alphaEff
    ∧ at4 32 = c.fireAt.getD 0 ∧ at4 36 = c.expiry.getD 0 ∧ at4 40 = c.deadline.getD 0
    ∧ at4 44 = m.blockBack.getD 0 ∧ at4 48 = m.lastFire.getD 0
    ∧ count 52 (v.lastGamma.getD 0)
    ∧ count 54 m.scheduled ∧ count 56 m.late ∧ count 58 m.forced ∧ count 60 c.pulledIn
    ∧ count 62 m.refire ∧ count 64 m.protective ∧ count 66 v.bypasses
    ∧ count 68 c.slips ∧ count 70 v.commFailures ∧ count 72 v.channel.errors
    ∧ b.getD 74 0 = byte v.channel.noiseCycle ∧ count 75 v.channel.noiseTotal

/-- SEEK sets its own link's cursor, in any unit state (R159). WALK examines the records in table order
from the cursor: it takes those not ABSENT and stamped above S, up to four, and stops after the fourth
or after (12, 80), when the end flag is set and the cursor becomes (1, 1). That bits 6 to 3 of byte 7 of
the reply are 0 is the model's (assumption 10). -/
def Obligations.SeekAndWalkMoveTheCursor : Prop :=
  ∀ (s : State) (t : Instant) (l : Link) (h : ServiceHead), s.live → s.addressed h.address →
    let s1 := s.heard t l h.role
    let moved (c : Cursor) : State := s1.modLink l fun k => { k with cursor := c }
    let rank (c : Cursor) : Nat := 80 * c.valve.val + c.position
    let start := (s.link l).cursor
    (∀ j p : Byte, serviceIntact h (.seek j p) →
      (∀ v : Valve, j.toNat = v.val + 1 → 1 ≤ p.toNat → p.toNat ≤ 80 →
        exec (.seek t l h j p) s
          = .next ((moved { valve := v, position := p.toNat }).replyService l h.address 3 .ok [j, p]))
      ∧ ((∀ v : Valve, j.toNat ≠ v.val + 1) ∨ p.toNat = 0 ∨ 80 < p.toNat →
        exec (.seek t l h j p) s = .next (s1.replyService l h.address 3 .badAddress [])))
    ∧ ∀ since : BitVec 32, serviceIntact h (.walk since) →
      (s.isReady = false →
        exec (.walk t l h since) s = .next (s1.replyService l h.address 4 .noConfig []))
      ∧ (s.isReady = true → 1 ≤ start.position → start.position ≤ 80 →
        ∃ (taken : List Cursor) (last : Nat) (next : Cursor),
          (∀ c, c ∈ taken ↔ 1 ≤ c.position ∧ c.position ≤ 80 ∧ rank start ≤ rank c ∧ rank c ≤ last
            ∧ ((s.valve c.valve).level c.position).state ≠ .absent
            ∧ since.toNat < ((s.valve c.valve).level c.position).stamp)
          ∧ taken.Pairwise (fun c d => rank c < rank d) ∧ taken.length ≤ 4 ∧ last ≤ 960
          ∧ (taken.length < 4 → last = 960)
          ∧ (∀ c, taken[3]? = some c → last = rank c)
          ∧ (last = 960 → next = { valve := 0, position := 1 })
          ∧ (last < 960 → rank next = last + 1 ∧ 1 ≤ next.position ∧ next.position ≤ 80)
          ∧ exec (.walk t l h since) s = .next ((moved next).replyService l h.address 4 .ok
              (((if last = 960 then 0x80#8 else 0#8) ||| BitVec.ofNat 8 taken.length)
                :: BitVec.ofNat 8 (next.valve.val + 1) :: BitVec.ofNat 8 next.position
                :: taken.flatMap fun c =>
                  ((s.valve c.valve).level c.position).bytes (c.valve.val + 1) c.position)))

/-- A changing request acts only when its frame claims ACTIVE on SEL, as SEL stands after the switch
rule; else it is answered NOT_ACTIVE before any other check (R156). RETIRE, RESTORE and CLEAR COUNTS
are then NO_CONFIG outside READY, and BAD_ADDRESS out of range or ABSENT (R74, R160). -/
def Obligations.ChangingRequestsAreChecked : Prop :=
  ∀ (s : State) (t : Instant) (l : Link) (h : ServiceHead) (r : Request), s.live →
    s.addressed h.address → serviceIntact h r →
    let s1 := s.heard t l h.role
    let answer (result : ServiceResult) : Host.Outcome State Fault Refusal :=
      .next (s1.replyService l h.address r.code result [])
    (r.changing = true → h.role = .standby ∨ s1.sel ≠ l →
      exec (r.command t l h) s = answer .notActive)
    ∧ ∀ j p, r = .retire j p ∨ r = .restore j p ∨ r = .clearCounts j p →
      h.role = .active → s1.sel = l →
      (s.isReady = false → exec (r.command t l h) s = answer .noConfig)
      ∧ (s.isReady = true → (∀ v : Valve, j.toNat ≠ v.val + 1) ∨ p.toNat = 0 ∨ 80 < p.toNat
          ∨ (∃ v : Valve, j.toNat = v.val + 1 ∧ ((s.valve v).level p.toNat).state = .absent) →
        exec (r.command t l h) s = answer .badAddress)

/-- RETIRE of an installed record (R75, R76, R68): refused with WOULD_EXHAUST outside BLOCKED when the
level counts and its valve's failed count is Rv; otherwise the record is RETIRED by the link and
stamped, a change of state is handed on with the flag and the count corrected, and the reply carries
the record. That a trip cause of the change is taken before the reply is the model's reading (assumption
4). -/
def Obligations.RetireTakesTheLevelOut : Prop :=
  ∀ (s : State) (t : Instant) (l : Link) (h : ServiceHead) (j p : Byte) (v : Valve) (im : Image),
    s.unit = .ready im → s.addressed h.address → serviceIntact h (.retire j p) →
    h.role = .active → (s.heard t l .active).sel = l → j.toNat = v.val + 1 → 1 ≤ p.toNat →
    p.toNat ≤ 80 → ((s.valve v).level p.toNat).state ≠ .absent →
    let s1 := s.heard t l .active
    let w := s.valve v
    let record := w.level p.toNat
    let counts := record.indicated = true ∧ record.state.counting = true
    let exhausts := s.group.mode ≠ .blocked ∧ record.state.counting = true
      ∧ w.failed = Par.rv v im
    let s2 : State := ({ s1 with
      counter := if s.counter < 4294967295 then s.counter + 1 else s.counter }).setValve v { w with
        levels := w.levels.set (p.toNat - 1) { record with
          state := .retired, retiredBy := some l
          indicated := record.indicated && !record.state.counting
          stamp := if s.counter < 4294967295 then s.counter + 1 else 0 }
        monitor := { w.monitor with
          indicated := w.monitor.indicated - (if counts then 1 else 0) } }
    let s3 := if record.state = .retired then s2 else (s2.levelChange v (record.state, .retired)).settle
    (exhausts →
      exec (.retire t l h j p) s = .next (s1.replyService l h.address 5 .wouldExhaust []))
    ∧ (¬ exhausts →
      exec (.retire t l h j p) s = .next (s3.replyService l h.address 5 .ok
        (((s3.valve v).level p.toNat).bytes j.toNat p.toNat)))

/-- RESTORE of an installed record (R77, R78): WRONG_MODE unless BLOCKED with a failed record; otherwise
the record is UNPROVEN with its counts, first fault, last report and retired-by gone, stamped, and the
change handed on. CLEAR COUNTS zeroes the counts and the first fault cycle and stamps the record, the
state unchanged (R79). Each reply carries the record, after any trip cause of the change (assumption
4). -/
def Obligations.RestoreAndClearCountsAct : Prop :=
  ∀ (s : State) (t : Instant) (l : Link) (h : ServiceHead) (j p : Byte) (v : Valve) (im : Image),
    s.unit = .ready im → s.addressed h.address → h.role = .active →
    (s.heard t l .active).sel = l → j.toNat = v.val + 1 → 1 ≤ p.toNat → p.toNat ≤ 80 →
    ((s.valve v).level p.toNat).state ≠ .absent →
    let s1 := s.heard t l .active
    let w := s.valve v
    let record := w.level p.toNat
    let stamped (l' : Level) : State := ({ s1 with
      counter := if s.counter < 4294967295 then s.counter + 1 else s.counter }).setValve v { w with
        levels := w.levels.set (p.toNat - 1) { l' with
          stamp := if s.counter < 4294967295 then s.counter + 1 else 0 } }
    let restored := ((stamped { record with
      state := .unproven, miss := 0, pfiCount := 0, faultCount := 0, strayCount := 0
      firstFault := none, lastReport := none, retiredBy := none }).levelChange v
        (record.state, .unproven)).settle
    let cleared := stamped { record with
      pfiCount := 0, faultCount := 0, strayCount := 0, firstFault := none }
    let restorable := s.group.mode = .blocked
      ∧ (record.state = .dark ∨ record.state = .faulted ∨ record.state = .retired)
    (serviceIntact h (.restore j p) → restorable →
      exec (.restore t l h j p) s = .next (restored.replyService l h.address 6 .ok
        (((restored.valve v).level p.toNat).bytes j.toNat p.toNat)))
    ∧ (serviceIntact h (.restore j p) → ¬ restorable →
      exec (.restore t l h j p) s = .next (s1.replyService l h.address 6 .wrongMode []))
    ∧ (serviceIntact h (.clearCounts j p) →
      exec (.clearCounts t l h j p) s = .next (cleared.replyService l h.address 7 .ok
        (((cleared.valve v).level p.toNat).bytes j.toNat p.toNat)))

/-- CONFIG WRITE and CONFIG APPLY (R161, R162, R165, R166) in their checks' order. A write puts the first
n data words into the staging image unvalidated. An accepted apply starts every block under the staging
image, SEEKING and CONFIG_APPLIED posted, the silence limits judged with the new TSIL; the channels keep
their IDLE cadence in READY and send one IDLE each from CONFIG_FAULT; links, order and selection stay. That
the quorum-wait length starts at 0 is the model's (assumption 11). -/
def Obligations.ConfigurationIsWrittenAndApplied : Prop :=
  ∀ (s : State) (t : Instant) (l : Link) (h : ServiceHead), s.live → s.addressed h.address →
    h.role = .active → (s.heard t l .active).sel = l →
    let s1 := s.heard t l .active
    let loading := ∃ began, s.unit = .loading began
    (∀ (a n : Byte) (data : Vector Word16 8), serviceIntact h (.configWrite a n data) →
      let inImage := 1 ≤ n.toNat ∧ n.toNat ≤ 8 ∧ a.toNat + n.toNat ≤ 64
      let run := exec (.configWrite t l h a n data) s
      (loading → run = .next (s1.replyService l h.address 9 .noConfig []))
      ∧ (¬ loading → ¬ inImage → run = .next (s1.replyService l h.address 9 .badAddress []))
      ∧ (¬ loading → inImage → ∃ staging : Image,
          run = .next (({ s1 with staging := staging }).replyService l h.address 9 .ok [])
          ∧ ∀ k : Nat, k < 64 → imageWord staging k
              = if a.toNat ≤ k ∧ k < a.toNat + n.toNat
                then ((data.toList.getD (k - a.toNat) 0)).toNat else imageWord s.staging k))
    ∧ (serviceIntact h .configApply →
      let run := exec (.configApply t l h) s
      let refused (why : ServiceResult) : Host.Outcome State Fault Refusal :=
        .next (s1.replyService l h.address 10 why [])
      let notBlocked := s.isReady = true ∧ s.group.mode ≠ .blocked
      (s.store.isSome → run = refused .busy)
      ∧ (s.store = none → loading → run = refused .noConfig)
      ∧ (s.store = none → notBlocked → run = refused .wrongMode)
      ∧ (s.store = none → ¬ loading → ¬ notBlocked → imageValid s.staging = false →
          run = refused .invalidImage)
      ∧ (s.store = none → ¬ loading → ¬ notBlocked → imageValid s.staging = true →
        let im := s.staging
        let late (l' : Link) := (s1.link l').overdue t (Par.tsil im * 1000)
        ∃ u, run = .next (u.replyService l h.address 10 .ok [])
          ∧ u = { s1 with
              unit := .ready im
              tracker := { detector := .disarmed (if s.refHigh then none else some t)
                           period := Par.pnom im }
              counter := 0
              valves := Vector.ofFn fun j =>
                { blankValve with
                  monitor := { blankValve.monitor with
                    tally := { unproven := Par.nv j im }
                    margin := if Par.rv j im = 0 then .atLimit else .ample }
                  channel := { blankValve.channel with
                    lastSend := if s.isReady then (s.valve j).channel.lastSend else some t }
                  levels := List.replicate (Par.nv j im) { state := .unproven } }
              guard := {}
              group := {}
              linkA := u.linkA
              linkB := u.linkB
              sent := if s.isReady then s.sent
                else (allValves.map fun j => Sent.channel j (idleMessage t)).reverse ++ s.sent }
          ∧ (∀ l', u.link l' = { s1.link l' with
              silent := (s1.link l').silent || late l', attention := (u.link l').attention })
          ∧ Posted s1 u .sync syncSeeking ∧ Posted s1 u .mode modeConfigApplied
          ∧ Posted s1 u .link
              ((if late .a then linkASilent else 0) ||| if late .b then linkBSilent else 0)
          ∧ ∀ l' src, src ≠ .sync → src ≠ .mode → src ≠ .link → u.word l' src = s1.word l' src))

/-- CONFIG STORE and RESET in their checks' order (R162, R167), and the end of a STORE (R157, R166): the
words of the working image are taken within 1,000,000 ticks and the stored result is STORED, or a write
error or the end of that span makes it FAILED; that both act at the tick of that limit itself is the
model's (assumption 17). An accepted RESET is answered by nothing and leaves every block at its values
after a reset, in LOADING with start cause SERVICE; what it keeps is assumption 3, and the quorum-wait
length of 0, which no chapter gives, assumption 11. -/
def Obligations.StoresAndServiceResetsRun : Prop :=
  (∀ (s : State) (t : Instant) (l : Link) (h : ServiceHead), s.live → s.addressed h.address →
    h.role = .active → (s.heard t l .active).sel = l →
    let s1 := s.heard t l .active
    let refused (code : BitVec 4) (why : ServiceResult) : Host.Outcome State Fault Refusal :=
      .next (s1.replyService l h.address code why [])
    (serviceIntact h .configStore →
      let run := exec (.configStore t l h) s
      (s.store.isSome → run = refused 11 .busy)
      ∧ (s.store = none → s.isReady = false → run = refused 11 .noConfig)
      ∧ (s.store = none → s.isReady = true → s.group.mode ≠ .blocked → run = refused 11 .wrongMode)
      ∧ ∀ im, s.store = none → s.unit = .ready im → s.group.mode = .blocked →
        run = .next (({ s1 with store := some { began := t, words := im } }).replyService l h.address
          11 .ok []))
    ∧ (serviceIntact h .reset →
      let run := exec (.serviceReset t l h) s
      (s.store.isSome → run = refused 12 .busy)
      ∧ (s.store = none → s.group.mode ≠ .blocked → run = refused 12 .wrongMode)
      ∧ (s.store = none → s.group.mode = .blocked →
          run = .next (blankState s (.loading 0) .service))))
  ∧ ∀ (s : State) (t : Instant) (st : StoreInFlight), s.live → s.store = some st →
    let failed : State := { s.atInstant t with store := none, stored := .failed }
    (span st.began t ≤ 1000000 →
      exec (.storeComplete t) s = .next { s.atInstant t with
        store := none, stored := .stored, sent := .memory st.words :: s.sent })
    ∧ exec (.storeFailed t .writeError) s = .next failed
    ∧ (reached t (after st.began 1000000) = true → exec (.storeFailed t .timeout) s = .next failed)

/-! ## Invariants -/

/-- The state after a reset is that of a part which a power-on reset has left in LOADING with every
value its chapter gives (R16, R35, R51, R81, R107, R121, R141, R154, R157, R164, R167, R168), and every
invariant holds of it. The model's own here: the quorum-wait length of 0, which no chapter gives (assumption
11); that it is the instant after RESET_END, with the reference input low and nothing sent (assumption
3). -/
def Obligations.ResetStateIsSafe : Prop :=
  State.reset = blankState State.reset (.loading 0) .power
  ∧ State.reset.refHigh = false ∧ State.reset.sent = [] ∧ State.reset.pending = []
  ∧ State.reset.UnitInv ∧ State.reset.TrackerInv ∧ State.reset.ModeInv ∧ State.reset.GuardInv
  ∧ State.reset.LineInv ∧ State.reset.LevelInv ∧ State.reset.StampInv

/-- Every step keeps a valid working image, the values after a reset outside READY, and a STORE of the
working image (R163, R164, R166). Of those values the quorum-wait length of 0 is the model's (assumption
11). -/
def Obligations.StepsKeepTheUnitConsistent : Prop :=
  ∀ s u : State, s.UnitInv → step s = .next u → u.UnitInv

/-- Every step keeps the period estimate in the accept window, the counts of the sync machine in their
ranges, and the deadline at Tref + P + floor(P/8) outside SEEKING (R4, R5, R6, R10 to R13). -/
def Obligations.StepsKeepTheTrackerInRange : Prop :=
  ∀ s u : State, s.UnitInv → s.TrackerInv → step s = .next u → u.TrackerInv

/-- Every step keeps the origin, the legs and the gating expiry present in their modes alone, the last
upper valves empty in BLOCKED, schedules in RUNNING alone, and a quorum wait within an unissued firing
(R22, R30, R34, R99, R126, R131, R132, R134, R135). -/
def Obligations.StepsKeepModesAndSchedules : Prop :=
  ∀ s u : State, s.ModeInv → step s = .next u → u.ModeInv

/-- Every step keeps A within ADVMAX, latched angles within AMIN … AMAX, margins within 30,000 cdeg, and
the counts, reply queues, cursors and proving runs in their ranges (R25, R44, R109, R111, R112, R117,
R145, R151, R159). -/
def Obligations.StepsKeepGuardAndLinesInRange : Prop :=
  ∀ s u : State, s.UnitInv → s.GuardInv → s.LineInv → step s = .next u → u.GuardInv ∧ u.LineInv

/-- Every step keeps each valve record in agreement with its level records, and no two records with one
non-zero stamp (R54, R55, R57, R58, R59, R68, R71, R84, R85, R86, R98). -/
def Obligations.StepsKeepTheLevelTable : Prop :=
  (∀ s u : State, s.LevelInv → step s = .next u → u.LevelInv)
  ∧ ∀ s u : State, s.StampInv → step s = .next u → u.StampInv

/-- RUNNING is entered from DEBLOCKING alone with the five preconditions holding, no trip cause having
been held before the step, and DEBLOCKING with the five holding and RUN the requested mode of the
active order (R123, R124, R126, R128, R137). -/
def Obligations.OnlyAFitGroupRuns : Prop :=
  ∀ s u : State, step s = .next u →
    (u.group.mode = .running → s.group.mode ≠ .running →
      s.group.mode = .deblocking ∧ s.group.trips = {} ∧ u.isReady = true ∧ u.blocksFit)
    ∧ (u.group.mode = .deblocking → s.group.mode ≠ .deblocking →
      u.fit ∧ u.order.requested = .run
        ∧ (s.group.mode = .blocked ∨ s.group.mode = .bypass))
end

