-- ==== Sys2Proof/Laws/State.lean ====
section
/-! SUPPORT. What reading a field gives after each of the named updates of Machine/Access.lean and
Machine/Flags.lean: one lemma per field per update, so that no proof unfolds a record update. -/

namespace Sys2Proof.Machine

open Sys2Proof

/-! ## One valve replaced or changed -/

@[simp] theorem State.setValve_timebase (s : State) (j : Valve) (v : ValveRecord) :
    (s.setValve j v).timebase = s.timebase := rfl
@[simp] theorem State.setValve_unit (s : State) (j : Valve) (v : ValveRecord) :
    (s.setValve j v).unit = s.unit := rfl
@[simp] theorem State.setValve_startCause (s : State) (j : Valve) (v : ValveRecord) :
    (s.setValve j v).startCause = s.startCause := rfl
@[simp] theorem State.setValve_staging (s : State) (j : Valve) (v : ValveRecord) :
    (s.setValve j v).staging = s.staging := rfl
@[simp] theorem State.setValve_refHigh (s : State) (j : Valve) (v : ValveRecord) :
    (s.setValve j v).refHigh = s.refHigh := rfl
@[simp] theorem State.setValve_tracker (s : State) (j : Valve) (v : ValveRecord) :
    (s.setValve j v).tracker = s.tracker := rfl
@[simp] theorem State.setValve_counter (s : State) (j : Valve) (v : ValveRecord) :
    (s.setValve j v).counter = s.counter := rfl
@[simp] theorem State.setValve_guard (s : State) (j : Valve) (v : ValveRecord) :
    (s.setValve j v).guard = s.guard := rfl
@[simp] theorem State.setValve_group (s : State) (j : Valve) (v : ValveRecord) :
    (s.setValve j v).group = s.group := rfl
@[simp] theorem State.setValve_linkA (s : State) (j : Valve) (v : ValveRecord) :
    (s.setValve j v).linkA = s.linkA := rfl
@[simp] theorem State.setValve_linkB (s : State) (j : Valve) (v : ValveRecord) :
    (s.setValve j v).linkB = s.linkB := rfl
@[simp] theorem State.setValve_sel (s : State) (j : Valve) (v : ValveRecord) :
    (s.setValve j v).sel = s.sel := rfl
@[simp] theorem State.setValve_order (s : State) (j : Valve) (v : ValveRecord) :
    (s.setValve j v).order = s.order := rfl
@[simp] theorem State.setValve_lastTaken (s : State) (j : Valve) (v : ValveRecord) :
    (s.setValve j v).lastTaken = s.lastTaken := rfl
@[simp] theorem State.setValve_limitPassed (s : State) (j : Valve) (v : ValveRecord) :
    (s.setValve j v).limitPassed = s.limitPassed := rfl
@[simp] theorem State.setValve_store (s : State) (j : Valve) (v : ValveRecord) :
    (s.setValve j v).store = s.store := rfl
@[simp] theorem State.setValve_stored (s : State) (j : Valve) (v : ValveRecord) :
    (s.setValve j v).stored = s.stored := rfl
@[simp] theorem State.setValve_sent (s : State) (j : Valve) (v : ValveRecord) :
    (s.setValve j v).sent = s.sent := rfl
@[simp] theorem State.setValve_handed (s : State) (j : Valve) (v : ValveRecord) :
    (s.setValve j v).handed = s.handed := rfl
@[simp] theorem State.setValve_choices (s : State) (j : Valve) (v : ValveRecord) :
    (s.setValve j v).choices = s.choices := rfl
@[simp] theorem State.setValve_pending (s : State) (j : Valve) (v : ValveRecord) :
    (s.setValve j v).pending = s.pending := rfl

@[simp] theorem State.modValve_timebase (s : State) (j : Valve) (f : ValveRecord → ValveRecord) :
    (s.modValve j f).timebase = s.timebase := rfl
@[simp] theorem State.modValve_unit (s : State) (j : Valve) (f : ValveRecord → ValveRecord) :
    (s.modValve j f).unit = s.unit := rfl
@[simp] theorem State.modValve_startCause (s : State) (j : Valve) (f : ValveRecord → ValveRecord) :
    (s.modValve j f).startCause = s.startCause := rfl
@[simp] theorem State.modValve_staging (s : State) (j : Valve) (f : ValveRecord → ValveRecord) :
    (s.modValve j f).staging = s.staging := rfl
@[simp] theorem State.modValve_refHigh (s : State) (j : Valve) (f : ValveRecord → ValveRecord) :
    (s.modValve j f).refHigh = s.refHigh := rfl
@[simp] theorem State.modValve_tracker (s : State) (j : Valve) (f : ValveRecord → ValveRecord) :
    (s.modValve j f).tracker = s.tracker := rfl
@[simp] theorem State.modValve_counter (s : State) (j : Valve) (f : ValveRecord → ValveRecord) :
    (s.modValve j f).counter = s.counter := rfl
@[simp] theorem State.modValve_guard (s : State) (j : Valve) (f : ValveRecord → ValveRecord) :
    (s.modValve j f).guard = s.guard := rfl
@[simp] theorem State.modValve_group (s : State) (j : Valve) (f : ValveRecord → ValveRecord) :
    (s.modValve j f).group = s.group := rfl
@[simp] theorem State.modValve_linkA (s : State) (j : Valve) (f : ValveRecord → ValveRecord) :
    (s.modValve j f).linkA = s.linkA := rfl
@[simp] theorem State.modValve_linkB (s : State) (j : Valve) (f : ValveRecord → ValveRecord) :
    (s.modValve j f).linkB = s.linkB := rfl
@[simp] theorem State.modValve_sel (s : State) (j : Valve) (f : ValveRecord → ValveRecord) :
    (s.modValve j f).sel = s.sel := rfl
@[simp] theorem State.modValve_order (s : State) (j : Valve) (f : ValveRecord → ValveRecord) :
    (s.modValve j f).order = s.order := rfl
@[simp] theorem State.modValve_lastTaken (s : State) (j : Valve) (f : ValveRecord → ValveRecord) :
    (s.modValve j f).lastTaken = s.lastTaken := rfl
@[simp] theorem State.modValve_limitPassed (s : State) (j : Valve) (f : ValveRecord → ValveRecord) :
    (s.modValve j f).limitPassed = s.limitPassed := rfl
@[simp] theorem State.modValve_store (s : State) (j : Valve) (f : ValveRecord → ValveRecord) :
    (s.modValve j f).store = s.store := rfl
@[simp] theorem State.modValve_stored (s : State) (j : Valve) (f : ValveRecord → ValveRecord) :
    (s.modValve j f).stored = s.stored := rfl
@[simp] theorem State.modValve_sent (s : State) (j : Valve) (f : ValveRecord → ValveRecord) :
    (s.modValve j f).sent = s.sent := rfl
@[simp] theorem State.modValve_handed (s : State) (j : Valve) (f : ValveRecord → ValveRecord) :
    (s.modValve j f).handed = s.handed := rfl
@[simp] theorem State.modValve_choices (s : State) (j : Valve) (f : ValveRecord → ValveRecord) :
    (s.modValve j f).choices = s.choices := rfl
@[simp] theorem State.modValve_pending (s : State) (j : Valve) (f : ValveRecord → ValveRecord) :
    (s.modValve j f).pending = s.pending := rfl

@[simp] theorem State.mapValves_timebase (s : State) (f : Valve → ValveRecord → ValveRecord) :
    (s.mapValves f).timebase = s.timebase := rfl
@[simp] theorem State.mapValves_unit (s : State) (f : Valve → ValveRecord → ValveRecord) :
    (s.mapValves f).unit = s.unit := rfl
@[simp] theorem State.mapValves_startCause (s : State) (f : Valve → ValveRecord → ValveRecord) :
    (s.mapValves f).startCause = s.startCause := rfl
@[simp] theorem State.mapValves_staging (s : State) (f : Valve → ValveRecord → ValveRecord) :
    (s.mapValves f).staging = s.staging := rfl
@[simp] theorem State.mapValves_refHigh (s : State) (f : Valve → ValveRecord → ValveRecord) :
    (s.mapValves f).refHigh = s.refHigh := rfl
@[simp] theorem State.mapValves_tracker (s : State) (f : Valve → ValveRecord → ValveRecord) :
    (s.mapValves f).tracker = s.tracker := rfl
@[simp] theorem State.mapValves_counter (s : State) (f : Valve → ValveRecord → ValveRecord) :
    (s.mapValves f).counter = s.counter := rfl
@[simp] theorem State.mapValves_guard (s : State) (f : Valve → ValveRecord → ValveRecord) :
    (s.mapValves f).guard = s.guard := rfl
@[simp] theorem State.mapValves_group (s : State) (f : Valve → ValveRecord → ValveRecord) :
    (s.mapValves f).group = s.group := rfl
@[simp] theorem State.mapValves_linkA (s : State) (f : Valve → ValveRecord → ValveRecord) :
    (s.mapValves f).linkA = s.linkA := rfl
@[simp] theorem State.mapValves_linkB (s : State) (f : Valve → ValveRecord → ValveRecord) :
    (s.mapValves f).linkB = s.linkB := rfl
@[simp] theorem State.mapValves_sel (s : State) (f : Valve → ValveRecord → ValveRecord) :
    (s.mapValves f).sel = s.sel := rfl
@[simp] theorem State.mapValves_order (s : State) (f : Valve → ValveRecord → ValveRecord) :
    (s.mapValves f).order = s.order := rfl
@[simp] theorem State.mapValves_lastTaken (s : State) (f : Valve → ValveRecord → ValveRecord) :
    (s.mapValves f).lastTaken = s.lastTaken := rfl
@[simp] theorem State.mapValves_limitPassed (s : State) (f : Valve → ValveRecord → ValveRecord) :
    (s.mapValves f).limitPassed = s.limitPassed := rfl
@[simp] theorem State.mapValves_store (s : State) (f : Valve → ValveRecord → ValveRecord) :
    (s.mapValves f).store = s.store := rfl
@[simp] theorem State.mapValves_stored (s : State) (f : Valve → ValveRecord → ValveRecord) :
    (s.mapValves f).stored = s.stored := rfl
@[simp] theorem State.mapValves_sent (s : State) (f : Valve → ValveRecord → ValveRecord) :
    (s.mapValves f).sent = s.sent := rfl
@[simp] theorem State.mapValves_handed (s : State) (f : Valve → ValveRecord → ValveRecord) :
    (s.mapValves f).handed = s.handed := rfl
@[simp] theorem State.mapValves_choices (s : State) (f : Valve → ValveRecord → ValveRecord) :
    (s.mapValves f).choices = s.choices := rfl
@[simp] theorem State.mapValves_pending (s : State) (f : Valve → ValveRecord → ValveRecord) :
    (s.mapValves f).pending = s.pending := rfl

/-! ## One link changed, an event posted, a cause handed -/

@[simp] theorem State.modLink_timebase (s : State) (l : Link) (f : LinkState → LinkState) :
    (s.modLink l f).timebase = s.timebase := by
  cases l <;> rfl
@[simp] theorem State.modLink_unit (s : State) (l : Link) (f : LinkState → LinkState) :
    (s.modLink l f).unit = s.unit := by
  cases l <;> rfl
@[simp] theorem State.modLink_startCause (s : State) (l : Link) (f : LinkState → LinkState) :
    (s.modLink l f).startCause = s.startCause := by
  cases l <;> rfl
@[simp] theorem State.modLink_staging (s : State) (l : Link) (f : LinkState → LinkState) :
    (s.modLink l f).staging = s.staging := by
  cases l <;> rfl
@[simp] theorem State.modLink_refHigh (s : State) (l : Link) (f : LinkState → LinkState) :
    (s.modLink l f).refHigh = s.refHigh := by
  cases l <;> rfl
@[simp] theorem State.modLink_tracker (s : State) (l : Link) (f : LinkState → LinkState) :
    (s.modLink l f).tracker = s.tracker := by
  cases l <;> rfl
@[simp] theorem State.modLink_counter (s : State) (l : Link) (f : LinkState → LinkState) :
    (s.modLink l f).counter = s.counter := by
  cases l <;> rfl
@[simp] theorem State.modLink_valves (s : State) (l : Link) (f : LinkState → LinkState) :
    (s.modLink l f).valves = s.valves := by
  cases l <;> rfl
@[simp] theorem State.modLink_guard (s : State) (l : Link) (f : LinkState → LinkState) :
    (s.modLink l f).guard = s.guard := by
  cases l <;> rfl
@[simp] theorem State.modLink_group (s : State) (l : Link) (f : LinkState → LinkState) :
    (s.modLink l f).group = s.group := by
  cases l <;> rfl
@[simp] theorem State.modLink_sel (s : State) (l : Link) (f : LinkState → LinkState) :
    (s.modLink l f).sel = s.sel := by
  cases l <;> rfl
@[simp] theorem State.modLink_order (s : State) (l : Link) (f : LinkState → LinkState) :
    (s.modLink l f).order = s.order := by
  cases l <;> rfl
@[simp] theorem State.modLink_lastTaken (s : State) (l : Link) (f : LinkState → LinkState) :
    (s.modLink l f).lastTaken = s.lastTaken := by
  cases l <;> rfl
@[simp] theorem State.modLink_limitPassed (s : State) (l : Link) (f : LinkState → LinkState) :
    (s.modLink l f).limitPassed = s.limitPassed := by
  cases l <;> rfl
@[simp] theorem State.modLink_store (s : State) (l : Link) (f : LinkState → LinkState) :
    (s.modLink l f).store = s.store := by
  cases l <;> rfl
@[simp] theorem State.modLink_stored (s : State) (l : Link) (f : LinkState → LinkState) :
    (s.modLink l f).stored = s.stored := by
  cases l <;> rfl
@[simp] theorem State.modLink_sent (s : State) (l : Link) (f : LinkState → LinkState) :
    (s.modLink l f).sent = s.sent := by
  cases l <;> rfl
@[simp] theorem State.modLink_handed (s : State) (l : Link) (f : LinkState → LinkState) :
    (s.modLink l f).handed = s.handed := by
  cases l <;> rfl
@[simp] theorem State.modLink_choices (s : State) (l : Link) (f : LinkState → LinkState) :
    (s.modLink l f).choices = s.choices := by
  cases l <;> rfl
@[simp] theorem State.modLink_pending (s : State) (l : Link) (f : LinkState → LinkState) :
    (s.modLink l f).pending = s.pending := by
  cases l <;> rfl

@[simp] theorem State.post_timebase (s : State) (src : Source) (bits : BitVec 12) :
    (s.post src bits).timebase = s.timebase := rfl
@[simp] theorem State.post_unit (s : State) (src : Source) (bits : BitVec 12) :
    (s.post src bits).unit = s.unit := rfl
@[simp] theorem State.post_startCause (s : State) (src : Source) (bits : BitVec 12) :
    (s.post src bits).startCause = s.startCause := rfl
@[simp] theorem State.post_staging (s : State) (src : Source) (bits : BitVec 12) :
    (s.post src bits).staging = s.staging := rfl
@[simp] theorem State.post_refHigh (s : State) (src : Source) (bits : BitVec 12) :
    (s.post src bits).refHigh = s.refHigh := rfl
@[simp] theorem State.post_tracker (s : State) (src : Source) (bits : BitVec 12) :
    (s.post src bits).tracker = s.tracker := rfl
@[simp] theorem State.post_counter (s : State) (src : Source) (bits : BitVec 12) :
    (s.post src bits).counter = s.counter := rfl
@[simp] theorem State.post_valves (s : State) (src : Source) (bits : BitVec 12) :
    (s.post src bits).valves = s.valves := rfl
@[simp] theorem State.post_guard (s : State) (src : Source) (bits : BitVec 12) :
    (s.post src bits).guard = s.guard := rfl
@[simp] theorem State.post_group (s : State) (src : Source) (bits : BitVec 12) :
    (s.post src bits).group = s.group := rfl
@[simp] theorem State.post_sel (s : State) (src : Source) (bits : BitVec 12) :
    (s.post src bits).sel = s.sel := rfl
@[simp] theorem State.post_order (s : State) (src : Source) (bits : BitVec 12) :
    (s.post src bits).order = s.order := rfl
@[simp] theorem State.post_lastTaken (s : State) (src : Source) (bits : BitVec 12) :
    (s.post src bits).lastTaken = s.lastTaken := rfl
@[simp] theorem State.post_limitPassed (s : State) (src : Source) (bits : BitVec 12) :
    (s.post src bits).limitPassed = s.limitPassed := rfl
@[simp] theorem State.post_store (s : State) (src : Source) (bits : BitVec 12) :
    (s.post src bits).store = s.store := rfl
@[simp] theorem State.post_stored (s : State) (src : Source) (bits : BitVec 12) :
    (s.post src bits).stored = s.stored := rfl
@[simp] theorem State.post_sent (s : State) (src : Source) (bits : BitVec 12) :
    (s.post src bits).sent = s.sent := rfl
@[simp] theorem State.post_handed (s : State) (src : Source) (bits : BitVec 12) :
    (s.post src bits).handed = s.handed := rfl
@[simp] theorem State.post_choices (s : State) (src : Source) (bits : BitVec 12) :
    (s.post src bits).choices = s.choices := rfl
@[simp] theorem State.post_pending (s : State) (src : Source) (bits : BitVec 12) :
    (s.post src bits).pending = s.pending := rfl

@[simp] theorem State.hand_timebase (s : State) (c : TripCause) : (s.hand c).timebase = s.timebase := rfl
@[simp] theorem State.hand_unit (s : State) (c : TripCause) : (s.hand c).unit = s.unit := rfl
@[simp] theorem State.hand_startCause (s : State) (c : TripCause) : (s.hand c).startCause = s.startCause := rfl
@[simp] theorem State.hand_staging (s : State) (c : TripCause) : (s.hand c).staging = s.staging := rfl
@[simp] theorem State.hand_refHigh (s : State) (c : TripCause) : (s.hand c).refHigh = s.refHigh := rfl
@[simp] theorem State.hand_tracker (s : State) (c : TripCause) : (s.hand c).tracker = s.tracker := rfl
@[simp] theorem State.hand_counter (s : State) (c : TripCause) : (s.hand c).counter = s.counter := rfl
@[simp] theorem State.hand_valves (s : State) (c : TripCause) : (s.hand c).valves = s.valves := rfl
@[simp] theorem State.hand_guard (s : State) (c : TripCause) : (s.hand c).guard = s.guard := rfl
@[simp] theorem State.hand_group (s : State) (c : TripCause) : (s.hand c).group = s.group := rfl
@[simp] theorem State.hand_linkA (s : State) (c : TripCause) : (s.hand c).linkA = s.linkA := rfl
@[simp] theorem State.hand_linkB (s : State) (c : TripCause) : (s.hand c).linkB = s.linkB := rfl
@[simp] theorem State.hand_sel (s : State) (c : TripCause) : (s.hand c).sel = s.sel := rfl
@[simp] theorem State.hand_order (s : State) (c : TripCause) : (s.hand c).order = s.order := rfl
@[simp] theorem State.hand_lastTaken (s : State) (c : TripCause) : (s.hand c).lastTaken = s.lastTaken := rfl
@[simp] theorem State.hand_limitPassed (s : State) (c : TripCause) : (s.hand c).limitPassed = s.limitPassed := rfl
@[simp] theorem State.hand_store (s : State) (c : TripCause) : (s.hand c).store = s.store := rfl
@[simp] theorem State.hand_stored (s : State) (c : TripCause) : (s.hand c).stored = s.stored := rfl
@[simp] theorem State.hand_sent (s : State) (c : TripCause) : (s.hand c).sent = s.sent := rfl
@[simp] theorem State.hand_choices (s : State) (c : TripCause) : (s.hand c).choices = s.choices := rfl
@[simp] theorem State.hand_pending (s : State) (c : TripCause) : (s.hand c).pending = s.pending := rfl
@[simp] theorem State.hand_handed (s : State) (c : TripCause) : (s.hand c).handed = s.handed ++ [c] := rfl

/-! ## The instant of a command, and the choices -/

@[simp] theorem State.atInstant_unit (s : State) (t : Instant) : (s.atInstant t).unit = s.unit := rfl
@[simp] theorem State.atInstant_startCause (s : State) (t : Instant) : (s.atInstant t).startCause = s.startCause := rfl
@[simp] theorem State.atInstant_staging (s : State) (t : Instant) : (s.atInstant t).staging = s.staging := rfl
@[simp] theorem State.atInstant_refHigh (s : State) (t : Instant) : (s.atInstant t).refHigh = s.refHigh := rfl
@[simp] theorem State.atInstant_tracker (s : State) (t : Instant) : (s.atInstant t).tracker = s.tracker := rfl
@[simp] theorem State.atInstant_counter (s : State) (t : Instant) : (s.atInstant t).counter = s.counter := rfl
@[simp] theorem State.atInstant_valves (s : State) (t : Instant) : (s.atInstant t).valves = s.valves := rfl
@[simp] theorem State.atInstant_guard (s : State) (t : Instant) : (s.atInstant t).guard = s.guard := rfl
@[simp] theorem State.atInstant_group (s : State) (t : Instant) : (s.atInstant t).group = s.group := rfl
@[simp] theorem State.atInstant_linkA (s : State) (t : Instant) : (s.atInstant t).linkA = s.linkA := rfl
@[simp] theorem State.atInstant_linkB (s : State) (t : Instant) : (s.atInstant t).linkB = s.linkB := rfl
@[simp] theorem State.atInstant_sel (s : State) (t : Instant) : (s.atInstant t).sel = s.sel := rfl
@[simp] theorem State.atInstant_order (s : State) (t : Instant) : (s.atInstant t).order = s.order := rfl
@[simp] theorem State.atInstant_lastTaken (s : State) (t : Instant) : (s.atInstant t).lastTaken = s.lastTaken := rfl
@[simp] theorem State.atInstant_limitPassed (s : State) (t : Instant) : (s.atInstant t).limitPassed = s.limitPassed := rfl
@[simp] theorem State.atInstant_store (s : State) (t : Instant) : (s.atInstant t).store = s.store := rfl
@[simp] theorem State.atInstant_stored (s : State) (t : Instant) : (s.atInstant t).stored = s.stored := rfl
@[simp] theorem State.atInstant_sent (s : State) (t : Instant) : (s.atInstant t).sent = s.sent := rfl
@[simp] theorem State.atInstant_choices (s : State) (t : Instant) : (s.atInstant t).choices = s.choices := rfl
@[simp] theorem State.atInstant_pending (s : State) (t : Instant) : (s.atInstant t).pending = s.pending := rfl
@[simp] theorem State.atInstant_timebase (s : State) (t : Instant) : (s.atInstant t).timebase = t := rfl
@[simp] theorem State.atInstant_handed (s : State) (t : Instant) : (s.atInstant t).handed = [] := rfl

@[simp] theorem State.choose_timebase (s : State) : s.choose.2.timebase = s.timebase := by
  unfold State.choose; split <;> rfl
@[simp] theorem State.choose_unit (s : State) : s.choose.2.unit = s.unit := by
  unfold State.choose; split <;> rfl
@[simp] theorem State.choose_startCause (s : State) : s.choose.2.startCause = s.startCause := by
  unfold State.choose; split <;> rfl
@[simp] theorem State.choose_staging (s : State) : s.choose.2.staging = s.staging := by
  unfold State.choose; split <;> rfl
@[simp] theorem State.choose_refHigh (s : State) : s.choose.2.refHigh = s.refHigh := by
  unfold State.choose; split <;> rfl
@[simp] theorem State.choose_tracker (s : State) : s.choose.2.tracker = s.tracker := by
  unfold State.choose; split <;> rfl
@[simp] theorem State.choose_counter (s : State) : s.choose.2.counter = s.counter := by
  unfold State.choose; split <;> rfl
@[simp] theorem State.choose_valves (s : State) : s.choose.2.valves = s.valves := by
  unfold State.choose; split <;> rfl
@[simp] theorem State.choose_guard (s : State) : s.choose.2.guard = s.guard := by
  unfold State.choose; split <;> rfl
@[simp] theorem State.choose_group (s : State) : s.choose.2.group = s.group := by
  unfold State.choose; split <;> rfl
@[simp] theorem State.choose_linkA (s : State) : s.choose.2.linkA = s.linkA := by
  unfold State.choose; split <;> rfl
@[simp] theorem State.choose_linkB (s : State) : s.choose.2.linkB = s.linkB := by
  unfold State.choose; split <;> rfl
@[simp] theorem State.choose_sel (s : State) : s.choose.2.sel = s.sel := by
  unfold State.choose; split <;> rfl
@[simp] theorem State.choose_order (s : State) : s.choose.2.order = s.order := by
  unfold State.choose; split <;> rfl
@[simp] theorem State.choose_lastTaken (s : State) : s.choose.2.lastTaken = s.lastTaken := by
  unfold State.choose; split <;> rfl
@[simp] theorem State.choose_limitPassed (s : State) : s.choose.2.limitPassed = s.limitPassed := by
  unfold State.choose; split <;> rfl
@[simp] theorem State.choose_store (s : State) : s.choose.2.store = s.store := by
  unfold State.choose; split <;> rfl
@[simp] theorem State.choose_stored (s : State) : s.choose.2.stored = s.stored := by
  unfold State.choose; split <;> rfl
@[simp] theorem State.choose_sent (s : State) : s.choose.2.sent = s.sent := by
  unfold State.choose; split <;> rfl
@[simp] theorem State.choose_handed (s : State) : s.choose.2.handed = s.handed := by
  unfold State.choose; split <;> rfl
@[simp] theorem State.choose_pending (s : State) : s.choose.2.pending = s.pending := by
  unfold State.choose; split <;> rfl

/-! ## What a command reads after an update -/

/-- Reading a valve after one was replaced. -/
@[simp] theorem State.setValve_valve (s : State) (j i : Valve) (v : ValveRecord) :
    (s.setValve j v).valve i = if i = j then v else s.valve i := by
  unfold State.setValve State.valve
  by_cases h : i = j
  · subst h; simp
  · have h' : (j : Nat) ≠ i := fun e => h (Fin.ext e.symm)
    simp [h, h']

theorem State.setValve_same (s : State) (j : Valve) (v : ValveRecord) :
    (s.setValve j v).valve j = v := by simp

theorem State.setValve_other (s : State) {j i : Valve} (v : ValveRecord) (h : i ≠ j) :
    (s.setValve j v).valve i = s.valve i := by simp [h]

/-- Reading a valve after one was changed. -/
@[simp] theorem State.modValve_valve (s : State) (j i : Valve) (f : ValveRecord → ValveRecord) :
    (s.modValve j f).valve i = if i = j then f (s.valve j) else s.valve i :=
  State.setValve_valve s j i _

/-- Reading a valve after all were changed. -/
@[simp] theorem State.mapValves_valve (s : State) (j : Valve)
    (f : Valve → ValveRecord → ValveRecord) : (s.mapValves f).valve j = f j (s.valve j) := by
  simp [State.mapValves, State.valve]

/-- Two replacements of one valve are the last one. -/
@[simp] theorem State.setValve_setValve (s : State) (j : Valve) (v w : ValveRecord) :
    (s.setValve j v).setValve j w = s.setValve j w := by
  simp [State.setValve]

/-- Replacing a valve by itself changes nothing. -/
@[simp] theorem State.setValve_self (s : State) (j : Valve) : s.setValve j (s.valve j) = s := by
  simp [State.setValve, State.valve]

/-- A link read after a link was changed. -/
@[simp] theorem State.modLink_link (s : State) (l k : Link) (f : LinkState → LinkState) :
    (s.modLink l f).link k = if k = l then f (s.link l) else s.link k := by
  cases l <;> cases k <;> rfl

/-- Two states agree when their valves do and all else does. -/
theorem valves_ext {x y : Vector ValveRecord Config.valveCount}
    (h : ∀ j : Valve, x[j] = y[j]) : x = y :=
  Vector.ext fun i hi => h ⟨i, hi⟩

@[simp] theorem State.valve_post (s : State) (src : Source) (bits : BitVec 12) (j : Valve) :
    (s.post src bits).valve j = s.valve j := rfl

@[simp] theorem State.valve_hand (s : State) (c : TripCause) (j : Valve) :
    (s.hand c).valve j = s.valve j := rfl

@[simp] theorem State.valve_atInstant (s : State) (t : Instant) (j : Valve) :
    (s.atInstant t).valve j = s.valve j := rfl

@[simp] theorem State.valve_modLink (s : State) (l : Link) (f : LinkState → LinkState) (j : Valve) :
    (s.modLink l f).valve j = s.valve j := by cases l <;> rfl

@[simp] theorem State.link_setValve (s : State) (j : Valve) (v : ValveRecord) (l : Link) :
    (s.setValve j v).link l = s.link l := by cases l <;> rfl

@[simp] theorem State.link_modValve (s : State) (j : Valve) (f : ValveRecord → ValveRecord)
    (l : Link) : (s.modValve j f).link l = s.link l := by cases l <;> rfl

@[simp] theorem State.link_mapValves (s : State) (f : Valve → ValveRecord → ValveRecord)
    (l : Link) : (s.mapValves f).link l = s.link l := by cases l <;> rfl

@[simp] theorem State.link_hand (s : State) (c : TripCause) (l : Link) :
    (s.hand c).link l = s.link l := by cases l <;> rfl

@[simp] theorem State.link_atInstant (s : State) (t : Instant) (l : Link) :
    (s.atInstant t).link l = s.link l := by cases l <;> rfl

/-- The parameters in force follow the unit alone. -/
theorem State.par_eq_of_unit {s u : State} (h : u.unit = s.unit) (f : Image → Nat) :
    u.par f = s.par f := by simp [State.par, h]

/-- In READY a parameter is that of the working image. -/
theorem State.par_ready {s : State} {im : Image} (h : s.unit = .ready im) (f : Image → Nat) :
    s.par f = f im := by simp [State.par, h]

/-- In READY there is a working image. -/
theorem State.working_ready {s : State} {im : Image} (h : s.unit = .ready im) :
    s.working = some im := by simp [State.working, h]

theorem State.isReady_ready {s : State} {im : Image} (h : s.unit = .ready im) :
    s.isReady = true := by simp [State.isReady, State.working_ready h]

/-- The unit is READY exactly with some working image. -/
theorem State.isReady_iff {s : State} : s.isReady = true ↔ ∃ im, s.unit = .ready im := by
  unfold State.isReady State.working
  constructor
  · intro h; split at h
    · exact ⟨_, by assumption⟩
    · cases h
  · rintro ⟨im, h⟩; simp [h]

/-- A part that is READY is not held in reset. -/
theorem State.live_ready {s : State} {im : Image} (h : s.unit = .ready im) : s.live := by
  intro c hc; rw [h] at hc; cases hc

/-- A command at tick `t` acts on the state at that instant, unless the part is held. -/
theorem State.atTick_live {s : State} (h : s.live) (t : Instant) (f : State → State) :
    s.atTick t f = .next (f (s.atInstant t)) := by
  unfold State.atTick
  split
  · exact absurd (by assumption) (h _)
  · rfl

/-- In reset a command at a tick does nothing. -/
theorem State.atTick_held {s : State} {c : Hold} (h : s.unit = .held c) (t : Instant)
    (f : State → State) : s.atTick t f = .next s := by
  simp [State.atTick, h]

/-- Whatever `atTick` answers: the state itself in reset, or the effect at the instant. -/
theorem State.atTick_next {s u : State} {t : Instant} {f : State → State}
    (h : s.atTick t f = .next u) : u = s ∨ (s.live ∧ u = f (s.atInstant t)) := by
  by_cases hl : s.live
  · rw [State.atTick_live hl] at h; cases h; exact .inr ⟨hl, rfl⟩
  · unfold State.live at hl; push Not at hl
    obtain ⟨c, hc⟩ := hl
    rw [State.atTick_held hc] at h; cases h; exact .inl rfl

end Sys2Proof.Machine
end

