-- ==== Sys2Proof/Laws/Events.lean ====
section
/-! SUPPORT. The attention sets (R152, R153): what posting does to the pending words, what the first
pending word is, and the frame `RestKept` of the operations on valves, guard and group. -/

namespace Sys2Proof.Machine

open Sys2Proof

/-! ## Words -/

/-- The source at a source's place is that source. -/
@[simp] theorem sourceAt_code (src : Source) : sourceAt src.code = src := by
  cases src with
  | valve j => rcases j with ⟨j, hj⟩; interval_cases j <;> rfl
  | _ => rfl

/-- Each source has its own place in priority order. -/
theorem Source.code_injective {x y : Source} (h : x.code = y.code) : x = y := by
  simpa using congrArg sourceAt h

/-- The place of the source at a place is that place. -/
@[simp] theorem code_sourceAt (n : Fin Config.sourceCount) : (sourceAt n).code = n := by
  revert n; decide

/-- Posting joins bits to one word and leaves the others. -/
theorem LinkState.post_pendingWord (k : LinkState) (src src' : Source) (bits : BitVec 12) :
    (k.post src bits).pendingWord src'
      = if src' = src then k.pendingWord src ||| bits else k.pendingWord src' := by
  unfold LinkState.post LinkState.pendingWord
  by_cases h : src' = src
  · subst h; simp
  · have h' : ((src.code : Fin Config.sourceCount) : Nat) ≠ src'.code := fun e =>
      h (Source.code_injective (Fin.ext e.symm))
    simp [h, h']

/-- Both links take a posted event. -/
@[simp] theorem State.post_link (s : State) (src : Source) (bits : BitVec 12) (l : Link) :
    (s.post src bits).link l = (s.link l).post src bits := by cases l <;> rfl

/-- A word after an event was posted (R152). -/
@[simp] theorem State.post_word (s : State) (src src' : Source) (bits : BitVec 12) (l : Link) :
    (s.post src bits).word l src'
      = if src' = src then s.word l src ||| bits else s.word l src' := by
  simp [State.word, LinkState.post_pendingWord]

@[simp] theorem State.word_setValve (s : State) (j : Valve) (v : ValveRecord) (l : Link)
    (src : Source) : (s.setValve j v).word l src = s.word l src := by simp [State.word]

@[simp] theorem State.word_modValve (s : State) (j : Valve) (f : ValveRecord → ValveRecord)
    (l : Link) (src : Source) : (s.modValve j f).word l src = s.word l src := by simp [State.word]

@[simp] theorem State.word_mapValves (s : State) (f : Valve → ValveRecord → ValveRecord)
    (l : Link) (src : Source) : (s.mapValves f).word l src = s.word l src := by simp [State.word]

@[simp] theorem State.word_hand (s : State) (c : TripCause) (l : Link) (src : Source) :
    (s.hand c).word l src = s.word l src := by simp [State.word]

/-- A set has no pending word exactly when every word is 0. -/
theorem LinkState.topWord_none (k : LinkState) :
    k.topWord = none ↔ ∀ src, k.pendingWord src = 0 := by
  unfold LinkState.topWord
  split
  · rename_i h
    simp only [List.find?_eq_none, List.mem_finRange, forall_const] at h
    simp only [true_iff]
    intro src
    simpa [LinkState.pendingWord] using h src.code
  · rename_i n h
    have := List.find?_some h
    simp only [reduceCtorEq, false_iff, not_forall]
    exact ⟨sourceAt n, by simpa [LinkState.pendingWord] using this⟩

/-- The top word is pending, and every source of higher priority has none (R153). -/
theorem LinkState.topWord_some {k : LinkState} {src : Source} {w : BitVec 12}
    (h : k.topWord = some (src, w)) :
    w = k.pendingWord src ∧ w ≠ 0 ∧ ∀ src', src'.code < src.code → k.pendingWord src' = 0 := by
  unfold LinkState.topWord at h
  split at h
  · cases h
  · rename_i n hn
    simp only [Option.some.injEq, Prod.mk.injEq] at h
    obtain ⟨rfl, rfl⟩ := h
    have hn' := List.find?_some hn
    refine ⟨by simp [LinkState.pendingWord], by simpa using hn', fun src' lt => ?_⟩
    rw [List.find?_eq_some_iff_append] at hn
    obtain ⟨_, as, bs, hab, hz⟩ := hn
    rw [code_sourceAt] at lt
    have hmem : src'.code ∈ as := by
      have hs : (List.finRange Config.sourceCount).Pairwise (· < ·) := List.pairwise_lt_finRange _
      have hin : src'.code ∈ as ++ n :: bs := hab ▸ List.mem_finRange _
      rw [hab, List.pairwise_append] at hs
      rcases List.mem_append.1 hin with h | h
      · exact h
      · rcases List.mem_cons.1 h with h | h
        · exact absurd (h ▸ lt) (lt_irrefl _)
        · exact absurd ((List.pairwise_cons.1 hs.2.1).1 _ h) (not_lt.2 lt.le)
    simpa [LinkState.pendingWord] using hz _ hmem

/-! ## The frame of valves, guard and group -/

theorem LinksKept.refl (s : State) : LinksKept s s := fun _ => rfl

theorem LinksKept.trans {s u w : State} (h : LinksKept s u) (h' : LinksKept u w) :
    LinksKept s w := fun l => by rw [h' l, h l]

theorem RestKept.refl (s : State) : RestKept s s := ⟨rfl, LinksKept.refl s⟩

theorem RestKept.trans {s u w : State} (h : RestKept s u) (h' : RestKept u w) : RestKept s w := by
  refine ⟨?_, h.2.trans h'.2⟩
  rw [h'.1, h.1]

/-- What `RestKept` says of the fields outside its list. -/
theorem RestKept.fields {s u : State} (h : RestKept s u) :
    u.timebase = s.timebase ∧ u.unit = s.unit ∧ u.startCause = s.startCause
      ∧ u.staging = s.staging ∧ u.refHigh = s.refHigh ∧ u.sel = s.sel ∧ u.order = s.order
      ∧ u.lastTaken = s.lastTaken ∧ u.limitPassed = s.limitPassed ∧ u.store = s.store
      ∧ u.stored = s.stored ∧ u.pending = s.pending := by
  rw [h.1]; simp

theorem RestKept.par {s u : State} (h : RestKept s u) (f : Image → Nat) : u.par f = s.par f :=
  State.par_eq_of_unit h.fields.2.1 f

theorem RestKept.timebase {s u : State} (h : RestKept s u) : u.timebase = s.timebase := h.fields.1

theorem State.post_rest (s : State) (src : Source) (bits : BitVec 12) :
    RestKept s (s.post src bits) := ⟨rfl, fun l => by cases l <;> rfl⟩

theorem State.setValve_rest (s : State) (j : Valve) (v : ValveRecord) :
    RestKept s (s.setValve j v) := ⟨rfl, fun l => by cases l <;> rfl⟩

theorem State.modValve_rest (s : State) (j : Valve) (f : ValveRecord → ValveRecord) :
    RestKept s (s.modValve j f) := State.setValve_rest s j _

theorem State.mapValves_rest (s : State) (f : Valve → ValveRecord → ValveRecord) :
    RestKept s (s.mapValves f) := ⟨rfl, fun l => by cases l <;> rfl⟩

theorem State.hand_rest (s : State) (c : TripCause) : RestKept s (s.hand c) :=
  ⟨rfl, fun l => by cases l <;> rfl⟩

theorem State.choose_rest (s : State) : RestKept s s.choose.2 := by
  unfold State.choose; split
  · exact RestKept.refl s
  · exact ⟨rfl, fun l => by cases l <;> rfl⟩

/-- A change of the fields that `RestKept` leaves open, made in one record update. -/
theorem State.update_rest (s : State) (counter : Nat) (guard : Guard) (group : Group)
    (tracker : Tracker) (sent : List Sent) (handed : List TripCause) :
    RestKept s { s with
      counter := counter, guard := guard, group := group, tracker := tracker, sent := sent
      handed := handed } := ⟨rfl, fun l => by cases l <;> rfl⟩

/-- A fold keeps the rest when each of its steps does. -/
theorem foldl_rest {α : Type} (f : State → α → State) (hf : ∀ s a, RestKept s (f s a))
    (as : List α) (s : State) : RestKept s (as.foldl f s) := by
  induction as generalizing s with
  | nil => exact RestKept.refl s
  | cons a as ih => exact (hf s a).trans (ih _)

end Sys2Proof.Machine
end

