-- ==== Sys2Proof/Laws/Rest.lean ====
section
/-! SUPPORT. The frame of every shared operation on valves, guard and group: it keeps the unit, the
images, the input, the selection and the order, the STORE, the waiting commands, and of the links all
but the attention sets. -/

namespace Sys2Proof.Machine

open Sys2Proof

/-! ## Levels and interval closings -/

theorem State.levelChange_rest (s : State) (j : Valve) (c : LevelState × LevelState) :
    RestKept s (s.levelChange j c) := by
  unfold State.levelChange
  have h := (State.post_rest s (.valve j) valveState).trans (State.setValve_rest _ j
    { s.valve j with monitor := { (s.valve j).monitor with
      tally := (s.valve j).monitor.tally.move c.1 c.2
      margin := marginOf ((s.valve j).monitor.tally.move c.1 c.2).failed (s.par (Par.rv j)) } })
  simp only
  split
  · exact h
  · split
    · exact (h.trans (State.post_rest ..)).trans (State.hand_rest ..)
    · exact h.trans (State.post_rest ..)

theorem State.closeInterval_rest (s : State) (j : Valve) : RestKept s (s.closeInterval j) := by
  unfold State.closeInterval
  refine RestKept.trans ?_ (State.modValve_rest ..)
  refine RestKept.trans ?_ (foldl_rest (fun s c => s.levelChange j c)
    (fun s c => State.levelChange_rest s j c) _ _)
  exact RestKept.trans (State.update_rest s _ s.guard s.group s.tracker s.sent s.handed)
    (State.setValve_rest ..)

/-! ## The guard -/

theorem State.failCommutation_rest (s : State) (j : Valve) :
    RestKept s (s.failCommutation j) := by
  unfold State.failCommutation
  exact ((State.update_rest s s.counter _ s.group s.tracker s.sent s.handed).trans
    (State.modValve_rest ..)).trans (State.post_rest ..)

theorem State.measure_rest (s : State) (j : Valve) (b d : Instant) :
    RestKept s (s.measure j b d) := by
  unfold State.measure
  exact (State.modValve_rest s j _).trans
    (State.update_rest _ s.counter _ s.group s.tracker s.sent s.handed)

/-! ## Fire messages -/

theorem State.sendFire_rest (s : State) (j : Valve) : RestKept s (s.sendFire j) := by
  unfold State.sendFire
  exact (State.update_rest s s.counter s.guard s.group s.tracker _ s.handed).trans
    (State.modValve_rest ..)

theorem State.sendIdle_rest (s : State) (j : Valve) : RestKept s (s.sendIdle j) := by
  unfold State.sendIdle
  exact (State.update_rest s s.counter s.guard s.group s.tracker _ s.handed).trans
    (State.modValve_rest ..)

theorem State.noteUpper_rest (s : State) (j : Valve) : RestKept s (s.noteUpper j) := by
  unfold State.noteUpper
  split
  · exact RestKept.refl s
  · exact State.update_rest s s.counter s.guard _ s.tracker s.sent s.handed

theorem State.commutate_rest (s : State) (j : Valve) : RestKept s (s.commutate j) := by
  unfold State.commutate
  simp only
  split
  · split
    · split
      · exact State.failCommutation_rest ..
      · exact State.setValve_rest ..
    · exact State.setValve_rest ..
  · exact RestKept.refl s

/-- A firing up to the end of the fired valve's interval. -/
def State.fireOwn (k : FireKind) (j : Valve) (s : State) : State :=
  let s := (s.sendFire j).modValve j fun v =>
    { v.countFiring k with monitor := { (v.countFiring k).monitor with
      lastFire := some s.timebase } }
  let s := s.noteUpper j
  if (s.valve j).monitor.phase = .conducting then s
  else (s.modValve j (·.withPhase .conducting)).closeInterval j

theorem State.fire_eq (s : State) (k : FireKind) (j : Valve) :
    s.fire k j = if (s.fireOwn k j).group.mode = .running
      then (s.fireOwn k j).commutate (predecessor j) else s.fireOwn k j := rfl

theorem State.fireOwn_rest (s : State) (k : FireKind) (j : Valve) :
    RestKept s (s.fireOwn k j) := by
  unfold State.fireOwn
  have h := ((State.sendFire_rest s j).trans (State.modValve_rest _ j fun v =>
    { v.countFiring k with monitor := { (v.countFiring k).monitor with
      lastFire := some s.timebase } })).trans (State.noteUpper_rest _ j)
  simp only
  split
  · exact h
  · exact (h.trans (State.modValve_rest ..)).trans (State.closeInterval_rest ..)

theorem State.fire_rest (s : State) (k : FireKind) (j : Valve) : RestKept s (s.fire k j) := by
  rw [State.fire_eq]
  split
  · exact (State.fireOwn_rest s k j).trans (State.commutate_rest ..)
  · exact State.fireOwn_rest s k j

theorem State.issue_rest (s : State) (k : FireKind) (j : Valve) : RestKept s (s.issue k j) :=
  (State.fire_rest s k j).trans (State.modValve_rest ..)

theorem State.fireLegs_rest (s : State) : RestKept s s.fireLegs := by
  unfold State.fireLegs
  split
  · exact RestKept.refl s
  · exact (State.choose_rest s).trans (foldl_rest (fun s j => s.fire .bypass j)
      (fun s j => State.fire_rest s .bypass j) _ _)

/-! ## Modes and trips -/

theorem State.leaveMode_rest (s : State) : RestKept s s.leaveMode := by
  unfold State.leaveMode
  split
  · exact State.mapValves_rest ..
  · exact RestKept.refl s

theorem State.enterBlocked_rest (s : State) : RestKept s s.enterBlocked := by
  unfold State.enterBlocked
  exact ((State.leaveMode_rest s).trans (State.update_rest _ s.leaveMode.counter _ _
    s.leaveMode.tracker s.leaveMode.sent s.leaveMode.handed)).trans (State.post_rest ..)

theorem State.enterDeblocking_rest (s : State) (o : Origin) : RestKept s (s.enterDeblocking o) :=
  (State.update_rest s s.counter s.guard _ s.tracker s.sent s.handed).trans (State.post_rest ..)

theorem State.enterRunning_rest (s : State) : RestKept s s.enterRunning :=
  (State.update_rest s s.counter _ _ s.tracker s.sent s.handed).trans (State.post_rest ..)

theorem State.refuse_rest (s : State) (r : RefusalReason) : RestKept s (s.refuse r) :=
  (State.update_rest s s.counter s.guard _ s.tracker s.sent s.handed).trans (State.post_rest ..)

theorem State.addTrip_rest (s : State) (c : TripCause) : RestKept s (s.addTrip c) := by
  unfold State.addTrip
  split
  · exact RestKept.refl s
  · exact (State.update_rest s s.counter s.guard _ s.tracker s.sent s.handed).trans
      (State.post_rest ..)

theorem State.absorbHanded_rest (s : State) : RestKept s s.absorbHanded :=
  (State.update_rest s s.counter s.guard s.group s.tracker s.sent []).trans
    (foldl_rest State.addTrip State.addTrip_rest _ _)

theorem State.enterBypass_rest (s : State) : RestKept s s.enterBypass := by
  unfold State.enterBypass
  refine RestKept.trans ?_ (State.absorbHanded_rest _)
  refine RestKept.trans ?_ (State.post_rest ..)
  exact (((State.leaveMode_rest s).trans (State.update_rest _ s.leaveMode.counter
    s.leaveMode.guard _ s.leaveMode.tracker s.leaveMode.sent s.leaveMode.handed)).trans
    (State.fireLegs_rest _)).trans (State.update_rest _ _ _ _ _ _ _)

theorem State.actOnTrip_rest (s : State) (c : TripCause) : RestKept s (s.actOnTrip c) := by
  unfold State.actOnTrip
  split
  · exact RestKept.refl s
  · exact RestKept.refl s
  · exact (State.enterBlocked_rest s).trans (State.refuse_rest ..)
  · split
    · exact State.enterBypass_rest s
    · exact RestKept.refl s

theorem State.latch_rest (s : State) (c : TripCause) : RestKept s (s.latch c) := by
  unfold State.latch
  split
  · exact RestKept.refl s
  · split
    · exact State.addTrip_rest s c
    · exact (State.addTrip_rest s c).trans (State.actOnTrip_rest ..)

theorem State.settle_rest (s : State) : RestKept s s.settle :=
  (State.update_rest s s.counter s.guard s.group s.tracker s.sent []).trans
    (foldl_rest State.latch State.latch_rest _ _)

theorem State.requestRun_rest (s : State) (o : Origin) : RestKept s (s.requestRun o) := by
  unfold State.requestRun
  split
  · exact State.enterDeblocking_rest ..
  · exact State.refuse_rest ..

theorem State.judgeRequest_rest (s : State) (r : Requested) : RestKept s (s.judgeRequest r) := by
  unfold State.judgeRequest
  split
  · split
    · exact RestKept.refl s
    · exact State.refuse_rest ..
    · exact State.refuse_rest ..
  · split
    all_goals first
      | exact RestKept.refl s
      | exact State.enterBlocked_rest s
      | exact State.enterBypass_rest s
      | exact State.requestRun_rest ..

theorem State.clearTrips_rest (s : State) : RestKept s s.clearTrips := by
  unfold State.clearTrips
  split
  · exact State.update_rest s s.counter s.guard _ s.tracker s.sent s.handed
  · exact RestKept.refl s

theorem State.recheck_rest (s : State) : RestKept s s.recheck := by
  unfold State.recheck
  split
  · split
    · exact State.enterRunning_rest s
    · exact (State.enterBlocked_rest s).trans (State.refuse_rest ..)
  · exact RestKept.refl s

/-! ## The hand-off of a reference -/

theorem State.offerZero_rest (s : State) (p : Nat) (z : Instant) (j : Valve) :
    RestKept s (s.offerZero p z j) := by
  unfold State.offerZero
  simp only
  split
  · exact State.setValve_rest ..
  · exact (State.setValve_rest ..).trans (State.post_rest ..)

theorem State.predictZeros_rest (s : State) (im : Image) (tref : Instant) (p : Nat) :
    RestKept s (s.predictZeros im tref p) :=
  foldl_rest _ (fun s j => State.offerZero_rest s p _ j) _ s

theorem State.handIf_rest (s : State) (b : Bool) (c : TripCause) :
    RestKept s (if b then s.hand c else s) := by
  cases b
  · exact RestKept.refl s
  · exact State.hand_rest s c

theorem State.closeGuardCycle_rest (s : State) : RestKept s s.closeGuardCycle :=
  (State.update_rest s s.counter _ s.group s.tracker s.sent s.handed).trans
    (State.handIf_rest _ _ _)

theorem State.recheckAndSettle_rest (s : State) : RestKept s s.recheckAndSettle := by
  unfold State.recheckAndSettle
  split
  · split
    · exact State.recheck_rest s
    · have h := State.choose_rest s
      simp only
      split
      · exact (h.trans (State.settle_rest _)).trans (State.recheck_rest _)
      · exact (h.trans (State.recheck_rest _)).trans (State.settle_rest _)
  · exact State.settle_rest s

theorem State.handReference_rest (s : State) (im : Image) (tref : Instant) :
    RestKept s (s.handReference im tref) := by
  unfold State.handReference
  refine RestKept.trans ?_ (State.recheckAndSettle_rest _)
  refine RestKept.trans ?_ (State.closeGuardCycle_rest _)
  refine RestKept.trans ?_ (State.mapValves_rest _ _)
  exact (State.update_rest s s.counter s.guard s.group _ s.sent s.handed).trans
    (State.predictZeros_rest ..)

/-! ## Reports -/

theorem State.superviseMessage_rest (s : State) (j : Valve) :
    RestKept s (s.superviseMessage j) := by
  unfold State.superviseMessage State.modChannel
  simp only
  split
  · exact State.modValve_rest ..
  · split
    · exact ((State.modValve_rest ..).trans (State.modValve_rest ..)).trans (State.post_rest ..)
    · exact (State.modValve_rest ..).trans (State.modValve_rest ..)

theorem State.applyAnswer_rest (s : State) (j : Valve) (p : Nat) (a : Answer) :
    RestKept s (s.applyAnswer j p a) := by
  unfold State.applyAnswer
  simp only
  split
  · exact ((State.update_rest s _ s.guard s.group s.tracker s.sent s.handed).trans
      (State.setValve_rest ..)).trans (State.levelChange_rest ..)
  · exact State.setValve_rest ..

theorem State.fireProtective_rest (s : State) (j : Valve) : RestKept s (s.fireProtective j) := by
  unfold State.fireProtective
  have h := (State.fire_rest s .protective j).trans
    (State.post_rest (s.fire .protective j) (.valve j) valveProtective)
  simp only
  split
  · exact h.trans (State.issue_rest ..)
  · exact h

theorem State.quorumReached_rest (s : State) (j : Valve) (b : Instant) :
    RestKept s (s.quorumReached j b) := by
  unfold State.quorumReached State.blockBack
  simp only
  split
  · split
    · exact RestKept.refl s
    · exact State.setValve_rest ..
  · split
    · split
      · exact (State.setValve_rest ..).trans (State.measure_rest ..)
      · exact State.setValve_rest ..
    · split
      · exact (State.issue_rest ..).trans (State.post_rest ..)
      · exact RestKept.refl s

theorem State.actOnIndication_rest (s : State) (j : Valve) (m : Mark) (a : Answer) (b : Instant) :
    RestKept s (s.actOnIndication j m a b) := by
  unfold State.actOnIndication
  split
  · split
    · exact State.quorumReached_rest ..
    · exact RestKept.refl s
  · split
    · exact State.fire_rest ..
    · exact RestKept.refl s

theorem State.takeReport_rest (s : State) (j : Valve) (p : Nat) (cls : ReportClass) (b : Instant) :
    RestKept s (s.takeReport j p cls b) := by
  unfold State.takeReport
  simp only
  split
  · exact RestKept.refl s
  · have h := State.applyAnswer_rest s j p
      (((s.valve j).level p).take cls (s.markOf j) b s.tracker.cycle)
    split
    · exact h.trans (State.fireProtective_rest ..)
    · split
      · exact h.trans (State.actOnIndication_rest ..)
      · exact h

end Sys2Proof.Machine
end

