-- ==== Sys2Proof/Laws/Levels.lean ====
section
/-! SUPPORT. The Level Table record by record: reading and replacing records, what one review does,
the whole of an interval accounting, and the bits of the fire mask. -/

namespace Sys2Proof.Machine

open Sys2Proof

/-! ## Reading and replacing -/

theorem ValveRecord.level_zero (v : ValveRecord) : v.level 0 = {} := rfl

/-- An installed record is the one at its place. -/
theorem ValveRecord.level_eq {v : ValveRecord} {p : Nat} {l : Level} (hp : 1 ≤ p)
    (h : v.levels[p - 1]? = some l) : v.level p = l := by
  unfold ValveRecord.level
  rw [if_neg (by omega), List.getD_eq_getElem?_getD, h]; rfl

/-- A record that is not ABSENT stands at an installed position. -/
theorem ValveRecord.installed {v : ValveRecord} {p : Nat} (h : (v.level p).state ≠ .absent) :
    1 ≤ p ∧ p ≤ v.levels.length ∧ v.levels[p - 1]? = some (v.level p) := by
  unfold ValveRecord.level at h ⊢
  by_cases hp : p = 0
  · rw [if_pos hp] at h; exact absurd rfl h
  · rw [if_neg hp] at h ⊢
    by_cases hl : p - 1 < v.levels.length
    · exact ⟨by omega, by omega, by simp [List.getD_eq_getElem?_getD, hl]⟩
    · rw [List.getD_eq_getElem?_getD, List.getElem?_eq_none (by omega)] at h
      exact absurd rfl h

/-- A record read after one was replaced. -/
theorem ValveRecord.setLevel_level {v : ValveRecord} {p : Nat} (hp : 1 ≤ p)
    (hl : p ≤ v.levels.length) (l : Level) (q : Nat) :
    (v.setLevel p l).level q = if q = p then l else v.level q := by
  unfold ValveRecord.setLevel ValveRecord.level
  by_cases hq : q = 0
  · subst hq; rw [if_pos rfl, if_neg (by omega), if_pos rfl]
  · simp only [hq, if_false, List.getD_eq_getElem?_getD, List.getElem?_set]
    by_cases h : q = p
    · subst h; rw [if_pos rfl, if_pos rfl, if_pos (by omega)]; rfl
    · rw [if_neg (by omega), if_neg h]

@[simp] theorem ValveRecord.setLevel_length (v : ValveRecord) (p : Nat) (l : Level) :
    (v.setLevel p l).levels.length = v.levels.length := by simp [ValveRecord.setLevel]

/-! ## One review (R70, R71) -/

theorem Level.review_idle {l : Level} (h : l.state.counting = false) (msus mdark : Nat)
    (valid : Bool) : l.review msus mdark valid = l := by simp [Level.review, h]

theorem Level.review_indicated {l : Level} (h : l.state.counting = true) (hi : l.indicated = true)
    (msus mdark : Nat) (valid : Bool) :
    l.review msus mdark valid = { l with miss := 0, state := .sound } := by
  simp [Level.review, h, hi]

/-- What a review leaves alone, and what it keeps of the miss count. -/
theorem Level.review_frame (l : Level) (msus mdark : Nat) (valid : Bool) :
    let r := l.review msus mdark valid
    r = { l with state := r.state, miss := r.miss }
    ∧ (l.miss ≤ mdark → r.miss ≤ mdark)
    ∧ (r.state ≠ l.state → l.state.counting = true)
    ∧ (l.state ≠ .absent → r.state ≠ .absent) ∧ (r.state = .retired ↔ l.state = .retired) := by
  unfold Level.review
  by_cases hc : l.state.counting = true
  · have hr : l.state ≠ .retired := by intro h; rw [h] at hc; cases hc
    rw [if_pos hc]
    split
    · exact ⟨rfl, fun _ => Nat.zero_le _, fun _ => hc, by simp, by simp [hr]⟩
    · split
      · refine ⟨rfl, fun _ => Nat.min_le_left _ _, fun _ => hc, fun h => ?_, ?_⟩
        all_goals simp only; repeat' split
        all_goals first | (simp; done) | exact h | simp [hr]
      · exact ⟨rfl, id, fun _ => hc, id, Iff.rfl⟩
  · rw [if_neg hc]
    exact ⟨rfl, id, fun h => absurd rfl h, id, Iff.rfl⟩

/-! ## An interval accounting (R58, R69 to R72) -/

section
variable (msus mdark : Nat) (valid : Bool)

@[simp] theorem reviewAll_nil (c : Nat) :
    reviewAll msus mdark valid c [] = ⟨c, [], []⟩ := rfl

/-- A record whose state stands is reviewed unstamped. -/
theorem reviewAll_same {l : Level} (h : (l.review msus mdark valid).state = l.state) (c : Nat)
    (ls : List Level) :
    reviewAll msus mdark valid c (l :: ls)
      = { reviewAll msus mdark valid c ls with
          levels := (l.review msus mdark valid).clearFlags
            :: (reviewAll msus mdark valid c ls).levels } := by
  simp [reviewAll, h]

/-- A record whose state changes takes the next stamp. -/
theorem reviewAll_changed {l : Level} (h : (l.review msus mdark valid).state ≠ l.state) (c : Nat)
    (ls : List Level) :
    reviewAll msus mdark valid c (l :: ls)
      = { reviewAll msus mdark valid (nextCounter c) ls with
          levels := { (l.review msus mdark valid).clearFlags with stamp := nextStamp c }
            :: (reviewAll msus mdark valid (nextCounter c) ls).levels
          changes := (l.state, (l.review msus mdark valid).state)
            :: (reviewAll msus mdark valid (nextCounter c) ls).changes } := by
  simp [reviewAll, h]

/-- A property of accountings is shown record by record: nothing to review, a record whose state
stands, a record whose state changes. -/
theorem reviewAll_induction {motive : Nat → List Level → Prop}
    (nil : ∀ c, motive c [])
    (same : ∀ c l ls, (l.review msus mdark valid).state = l.state → motive c ls →
      motive c (l :: ls))
    (changed : ∀ c l ls, (l.review msus mdark valid).state ≠ l.state → motive (nextCounter c) ls →
      motive c (l :: ls)) (c : Nat) (ls : List Level) : motive c ls := by
  induction ls generalizing c with
  | nil => exact nil c
  | cons l ls ih =>
    by_cases h : (l.review msus mdark valid).state = l.state
    · exact same c l ls h (ih c)
    · exact changed c l ls h (ih _)

theorem reviewAll_length (c : Nat) (ls : List Level) :
    (reviewAll msus mdark valid c ls).levels.length = ls.length := by
  induction c, ls using reviewAll_induction (msus := msus) (mdark := mdark) (valid := valid) with
  | nil c => rfl
  | same c l ls h ih => rw [reviewAll_same _ _ _ h]; simp [ih]
  | changed c l ls h ih => rw [reviewAll_changed _ _ _ h]; simp [ih]

/-- Each record after an accounting is its own review with the flags cleared, under some stamp. -/
theorem reviewAll_getElem (c : Nat) (ls : List Level) (k : Nat) (l : Level)
    (hk : ls[k]? = some l) :
    ∃ stamp, (reviewAll msus mdark valid c ls).levels[k]?
      = some { (l.review msus mdark valid).clearFlags with stamp := stamp } := by
  induction c, ls using reviewAll_induction (msus := msus) (mdark := mdark) (valid := valid)
    generalizing k with
  | nil c => cases hk
  | same c l' ls h ih =>
    rw [reviewAll_same _ _ _ h]
    cases k with
    | zero => cases hk; exact ⟨_, rfl⟩
    | succ k => exact ih k hk
  | changed c l' ls h ih =>
    rw [reviewAll_changed _ _ _ h]
    cases k with
    | zero => cases hk; exact ⟨_, rfl⟩
    | succ k => exact ih k hk

/-- The counter never falls at an accounting, and stays within its end. -/
theorem reviewAll_counter (c : Nat) (ls : List Level) :
    c ≤ (reviewAll msus mdark valid c ls).counter
      ∧ (c ≤ 4294967295 → (reviewAll msus mdark valid c ls).counter ≤ 4294967295) := by
  induction c, ls using reviewAll_induction (msus := msus) (mdark := mdark) (valid := valid) with
  | nil c => exact ⟨le_refl _, id⟩
  | same c l ls h ih => rw [reviewAll_same _ _ _ h]; exact ih
  | changed c l ls h ih =>
    rw [reviewAll_changed _ _ _ h]
    have : c ≤ nextCounter c ∧ (c ≤ 4294967295 → nextCounter c ≤ 4294967295) := by
      unfold nextCounter
      simp only [Config.stampLimit]
      split <;> omega
    exact ⟨this.1.trans ih.1, fun h => ih.2 (this.2 h)⟩

/-- An accounting changes states only when a record's review does. -/
theorem reviewAll_changes (c : Nat) (ls : List Level) :
    (reviewAll msus mdark valid c ls).changes
      = (ls.filter fun l => decide ((l.review msus mdark valid).state ≠ l.state)).map fun l =>
          (l.state, (l.review msus mdark valid).state) := by
  induction c, ls using reviewAll_induction (msus := msus) (mdark := mdark) (valid := valid) with
  | nil c => rfl
  | same c l ls h ih => rw [reviewAll_same _ _ _ h]; simp [h, ih]
  | changed c l ls h ih => rw [reviewAll_changed _ _ _ h]; simp [h, ih]

end

/-! ## The fire mask (R39) -/

/-- Bit by bit, the mask over the records from some position on. -/
theorem maskFrom_getLsbD (n : Nat) (hn : n ≤ 80) (ls : List Level) (i : Nat) :
    (maskFrom n ls).getLsbD i = true ↔
      i < n ∧ ∃ l, ls[n - 1 - i]? = some l ∧ l.state ≠ .retired ∧ l.state ≠ .absent := by
  induction ls generalizing n with
  | nil => cases n <;> simp [maskFrom]
  | cons l ls ih =>
    cases n with
    | zero => simp [maskFrom]
    | succ n =>
      rw [maskFrom, BitVec.getLsbD_or, Bool.or_eq_true, ih n (by omega)]
      rcases Nat.lt_trichotomy i n with h | h | h
      · have e : n + 1 - 1 - i = (n - 1 - i) + 1 := by omega
        have h0 : (if l.state = .retired ∨ l.state = .absent then (0 : BitVec 80)
            else BitVec.twoPow 80 n).getLsbD i = false := by
          split
          · simp
          · rw [BitVec.getLsbD_twoPow]; simp; omega
        rw [e, List.getElem?_cons_succ]
        simp only [h0, Bool.false_eq_true, false_or]
        constructor
        · rintro ⟨_, h'⟩; exact ⟨by omega, h'⟩
        · rintro ⟨_, h'⟩; exact ⟨h, h'⟩
      · subst h
        have e : i + 1 - 1 - i = 0 := by omega
        rw [e]
        by_cases hr : l.state = .retired ∨ l.state = .absent
        · simp only [hr, if_true, List.getElem?_cons_zero]
          constructor
          · rintro (h | ⟨h, _⟩)
            · simp at h
            · omega
          · rintro ⟨_, l', hl', h1, h2⟩
            cases hl'; rcases hr with hr | hr
            · exact absurd hr h1
            · exact absurd hr h2
        · simp only [hr, if_false, List.getElem?_cons_zero]
          refine ⟨fun _ => ⟨by omega, l, rfl, fun h => hr (.inl h), fun h => hr (.inr h)⟩, fun _ => ?_⟩
          left; rw [BitVec.getLsbD_twoPow]; simp [Config.positionCount]; omega
      · have h0 : (if l.state = .retired ∨ l.state = .absent then (0 : BitVec 80)
            else BitVec.twoPow 80 n).getLsbD i = false := by
          split
          · simp
          · rw [BitVec.getLsbD_twoPow]; simp; omega
        simp only [h0, Bool.false_eq_true, false_or]
        constructor
        · rintro ⟨h', _⟩; omega
        · rintro ⟨h', _⟩; omega

end Sys2Proof.Machine
end

