-- ==== Sys2Proof/Laws/Ops.lean ====
section
/-! SUPPORT. What each shared operation can do, said once: the blocks it leaves alone, the valves it
leaves alone, and what becomes of the valve it acts on. -/

namespace Sys2Proof.Machine

open Sys2Proof

/-! ## Level changes and closings -/

/-- A valve's tally and margin may have moved, and nothing else of its record. -/
def TallyMoved (v w : ValveRecord) : Prop :=
  w = { v with monitor := { v.monitor with tally := w.monitor.tally, margin := w.monitor.margin } }

theorem TallyMoved.refl (v : ValveRecord) : TallyMoved v v := rfl

theorem TallyMoved.trans {v w x : ValveRecord} (h : TallyMoved v w) (h' : TallyMoved w x) :
    TallyMoved v x := by
  unfold TallyMoved at *; rw [h', h]

/-- From `s` to `u` only valve `j`'s tally and margin, the words of its source and the handed causes
may have moved. -/
structure OnlyTally (s u : State) (j : Valve) : Prop where
  counter : u.counter = s.counter
  guard : u.guard = s.guard
  group : u.group = s.group
  tracker : u.tracker = s.tracker
  sent : u.sent = s.sent
  choices : u.choices = s.choices
  others : ∀ i, i ≠ j → u.valve i = s.valve i
  own : TallyMoved (s.valve j) (u.valve j)
  words : WordsKept s u (.valve j)
  handed : ∃ more, u.handed = s.handed ++ more ∧ ∀ c ∈ more, c = .redundancy

theorem OnlyTally.refl (s : State) (j : Valve) : OnlyTally s s j :=
  ⟨rfl, rfl, rfl, rfl, rfl, rfl, fun _ _ => rfl, rfl, fun _ _ _ => rfl, [], by simp⟩

theorem OnlyTally.trans {s u w : State} {j : Valve} (h : OnlyTally s u j) (h' : OnlyTally u w j) :
    OnlyTally s w j where
  counter := h'.counter.trans h.counter
  guard := h'.guard.trans h.guard
  group := h'.group.trans h.group
  tracker := h'.tracker.trans h.tracker
  sent := h'.sent.trans h.sent
  choices := h'.choices.trans h.choices
  others := fun i hi => (h'.others i hi).trans (h.others i hi)
  own := h.own.trans h'.own
  words := fun l src hs => (h'.words l src hs).trans (h.words l src hs)
  handed := by
    obtain ⟨m, e, hm⟩ := h.handed
    obtain ⟨m', e', hm'⟩ := h'.handed
    refine ⟨m ++ m', by rw [e', e, List.append_assoc], fun c hc => ?_⟩
    rcases List.mem_append.1 hc with hc | hc
    · exact hm c hc
    · exact hm' c hc

/-- A change of a level's state as it is handed on. -/
theorem State.levelChange_frame (s : State) (j : Valve) (c : LevelState × LevelState) :
    OnlyTally s (s.levelChange j c) j := by
  unfold State.levelChange
  simp only
  split
  · exact ⟨rfl, rfl, rfl, rfl, rfl, rfl, fun i hi => by simp [hi], by simp [TallyMoved],
      fun l src hs => by simp [hs], [], by simp⟩
  · split
    · exact ⟨rfl, rfl, rfl, rfl, rfl, rfl, fun i hi => by simp [hi], by simp [TallyMoved],
        fun l src hs => by simp [hs], [.redundancy], by simp⟩
    · exact ⟨rfl, rfl, rfl, rfl, rfl, rfl, fun i hi => by simp [hi], by simp [TallyMoved],
        fun l src hs => by simp [hs], [], by simp⟩

theorem foldl_levelChange_frame (s : State) (j : Valve) (cs : List (LevelState × LevelState)) :
    OnlyTally s (cs.foldl (State.levelChange j) s) j := by
  induction cs generalizing s with
  | nil => exact OnlyTally.refl s j
  | cons c cs ih => exact (State.levelChange_frame s j c).trans (ih _)

/-- The closing of a valve's interval: the counter and the records as the accounting leaves them,
both counts 0, tally and margin moved by the changes, everything else as it was. -/
theorem State.closeInterval_frame (s : State) (j : Valve) :
    let v := s.valve j
    let r := reviewAll (s.par Par.msus) (s.par Par.mdark)
      (decide (s.qv j ≤ v.monitor.indicated)) s.counter v.levels
    let u := s.closeInterval j
    u.counter = r.counter ∧ u.guard = s.guard ∧ u.group = s.group ∧ u.tracker = s.tracker
    ∧ u.sent = s.sent ∧ u.choices = s.choices
    ∧ (∀ i, i ≠ j → u.valve i = s.valve i)
    ∧ u.valve j = { v with levels := r.levels, monitor := { v.monitor with
        tally := (u.valve j).monitor.tally, margin := (u.valve j).monitor.margin
        indicated := 0, distinctPfi := 0 } }
    ∧ WordsKept s u (.valve j)
    ∧ ∃ more, u.handed = s.handed ++ more ∧ ∀ c ∈ more, c = .redundancy := by
  intro v r u
  have h := foldl_levelChange_frame
    (({ s with counter := r.counter } : State).setValve j { v with levels := r.levels }) j r.changes
  set w := r.changes.foldl (State.levelChange j)
    (({ s with counter := r.counter } : State).setValve j { v with levels := r.levels }) with hw
  have hu : u = w.modValve j fun v =>
      { v with monitor := { v.monitor with indicated := 0, distinctPfi := 0 } } := rfl
  have own := h.own
  rw [State.setValve_same] at own
  rw [hu]
  refine ⟨h.counter, h.guard, h.group, h.tracker, h.sent, h.choices, fun i hi => ?_, ?_,
    fun l src hs => ?_, h.handed⟩
  · rw [State.modValve_valve, if_neg hi, h.others i hi, State.setValve_other _ _ hi]; rfl
  · rw [State.modValve_valve, if_pos rfl]; rw [own]
  · rw [State.word_modValve, h.words l src hs, State.word_setValve]; rfl

/-! ## Fire messages -/

@[simp] theorem State.sendFire_sent (s : State) (j : Valve) :
    (s.sendFire j).sent = s.fireSent s.timebase j :: s.sent := rfl

@[simp] theorem State.sendFire_valve (s : State) (j i : Valve) :
    (s.sendFire j).valve i
      = if i = j then (s.valve j).withLastSend s.timebase else s.valve i := by
  simp [State.sendFire]; rfl

/-- Noting an upper valve changes the group's last upper valves alone. -/
theorem State.noteUpper_eq (s : State) (j : Valve) :
    ∃ g : Group, s.noteUpper j = { s with group := g }
      ∧ g = { s.group with lastUpperY := g.lastUpperY, lastUpperD := g.lastUpperD } := by
  unfold State.noteUpper
  split
  · exact ⟨s.group, rfl, rfl⟩
  · exact ⟨_, rfl, rfl⟩

@[simp] theorem State.noteUpper_valve (s : State) (j i : Valve) :
    (s.noteUpper j).valve i = s.valve i := by
  obtain ⟨g, h, _⟩ := s.noteUpper_eq j; rw [h]; rfl

@[simp] theorem State.noteUpper_mode (s : State) (j : Valve) :
    (s.noteUpper j).group.mode = s.group.mode := by
  obtain ⟨g, h, e⟩ := s.noteUpper_eq j; rw [h]; simp only; rw [e]

/-- Counting a firing leaves the rest of the record. -/
theorem ValveRecord.countFiring_frame (v : ValveRecord) (k : FireKind) :
    (v.countFiring k).levels = v.levels ∧ (v.countFiring k).channel = v.channel
    ∧ (v.countFiring k).monitor.phase = v.monitor.phase
    ∧ (v.countFiring k).monitor.tally = v.monitor.tally
    ∧ (v.countFiring k).monitor.margin = v.monitor.margin
    ∧ (v.countFiring k).monitor.indicated = v.monitor.indicated
    ∧ (v.countFiring k).monitor.distinctPfi = v.monitor.distinctPfi
    ∧ (v.countFiring k).monitor.blockBack = v.monitor.blockBack
    ∧ (v.countFiring k).lastGamma = v.lastGamma ∧ (v.countFiring k).commFailures = v.commFailures
    ∧ (v.countFiring k).schedule
        = { v.schedule with pulledIn := (v.countFiring k).schedule.pulledIn } := by
  cases k <;> exact ⟨rfl, rfl, rfl, rfl, rfl, rfl, rfl, rfl, rfl, rfl, rfl⟩

/-- The counts of firings after one of kind `k` is counted. -/
theorem ValveRecord.countFiring_count (v : ValveRecord) (k k' : FireKind) :
    (v.countFiring k).firingCount k'
      = if k' = k then bump Config.count16 (v.firingCount k) else v.firingCount k' := by
  cases k <;> cases k' <;> rfl

/-- A firing up to the end of the fired valve's interval: the message sent, the group's last upper
valves noted, no other valve and not the guard touched. -/
theorem State.fireOwn_frame (s : State) (k : FireKind) (j : Valve) :
    let u := s.fireOwn k j
    u.sent = s.fireSent s.timebase j :: s.sent ∧ u.guard = s.guard ∧ u.tracker = s.tracker
    ∧ u.choices = s.choices ∧ u.group = (s.noteUpper j).group
    ∧ (∀ i, i ≠ j → u.valve i = s.valve i)
    ∧ (u.valve j).monitor.phase = .conducting
    ∧ (u.valve j).monitor.lastFire = some s.timebase
    ∧ (u.valve j).channel = { (s.valve j).channel with lastSend := some s.timebase }
    ∧ (u.valve j).schedule = ((s.valve j).countFiring k).schedule
    ∧ WordsKept s u (.valve j)
    ∧ ∃ more, u.handed = s.handed ++ more ∧ ∀ c ∈ more, c = .redundancy := by
  intro u
  set s1 := (s.sendFire j).modValve j fun v =>
    { v.countFiring k with monitor := { (v.countFiring k).monitor with
      lastFire := some s.timebase } } with hs1
  have hn : s1.noteUpper j = { s1 with group := (s.noteUpper j).group } := by
    unfold State.noteUpper
    rw [show s1.group = s.group from rfl]
    split <;> rfl
  have hv : ∀ i, (s1.noteUpper j).valve i = s1.valve i := State.noteUpper_valve s1 j
  have hj : s1.valve j = { ((s.valve j).withLastSend s.timebase).countFiring k with
      monitor := { (((s.valve j).withLastSend s.timebase).countFiring k).monitor with
        lastFire := some s.timebase } } := by simp [hs1]
  have hc := ((s.valve j).withLastSend s.timebase).countFiring_frame k
  have hsch : (((s.valve j).withLastSend s.timebase).countFiring k).schedule
      = ((s.valve j).countFiring k).schedule := by cases k <;> rfl
  have hi : ∀ i, i ≠ j → s1.valve i = s.valve i := fun i hi => by simp [hs1, hi]
  have hu : u = if (s1.valve j).monitor.phase = .conducting then s1.noteUpper j
      else ((s1.noteUpper j).modValve j (·.withPhase .conducting)).closeInterval j := by
    rw [← hv j]; rfl
  rw [hu]
  split
  · rename_i hp
    rw [hn]
    refine ⟨rfl, rfl, rfl, rfl, rfl, hi, hp, ?_, ?_, ?_, fun l src _ => ?_, [], by simp [hs1]; rfl⟩
    · show (s1.valve j).monitor.lastFire = _; rw [hj]
    · show (s1.valve j).channel = _; rw [hj]; exact hc.2.1
    · show (s1.valve j).schedule = _; rw [hj]; exact hsch
    · cases l <;> rfl
  · have h := State.closeInterval_frame ((s1.noteUpper j).modValve j (·.withPhase .conducting)) j
    simp only at h
    obtain ⟨_, h1, h2, h3, h4, h5, h6, h7, h8, h9⟩ := h
    rw [hn] at h1 h2 h3 h4 h5 h6 h7 h8 h9 ⊢
    have h7' := congrArg (fun v => (v.monitor.phase, v.monitor.lastFire, v.channel, v.schedule)) h7
    simp only [State.modValve_valve, if_true, Prod.mk.injEq] at h7'
    refine ⟨h4, h1, h3, h5, h2, fun i hi' => ?_, ?_, ?_, ?_, ?_, fun l src hsrc => ?_, h9⟩
    · rw [h6 i hi', State.modValve_valve, if_neg hi']; exact hi i hi'
    · rw [h7'.1]; rfl
    · rw [h7'.2.1]; show (s1.valve j).monitor.lastFire = _; rw [hj]
    · rw [h7'.2.2.1]; show (s1.valve j).channel = _; rw [hj]; exact hc.2.1
    · rw [h7'.2.2.2]; show (s1.valve j).schedule = _; rw [hj]; exact hsch
    · rw [h8 l src hsrc, State.word_modValve]; cases l <;> rfl

/-- The record of a valve that has been fired, up to the end of its interval: the count of the firing;
a CONDUCTING valve keeps its interval, and any other closes it (R88, R89). -/
theorem State.fireOwn_valve (s : State) (k : FireKind) (j : Valve) :
    let w := (s.fireOwn k j).valve j
    let v := s.valve j
    (∀ k', w.firingCount k' = if k' = k then bump 65535 (v.firingCount k) else v.firingCount k')
    ∧ (v.monitor.phase = .conducting → w.levels = v.levels ∧ w.monitor.tally = v.monitor.tally
        ∧ w.monitor.indicated = v.monitor.indicated
        ∧ w.monitor.distinctPfi = v.monitor.distinctPfi ∧ (s.fireOwn k j).counter = s.counter)
    ∧ (v.monitor.phase ≠ .conducting → 
        let r := reviewAll (s.par Par.msus) (s.par Par.mdark)
          (decide (s.par (Par.qv j) ≤ v.monitor.indicated)) s.counter v.levels
        w.levels = r.levels ∧ (s.fireOwn k j).counter = r.counter
        ∧ w.monitor.indicated = 0 ∧ w.monitor.distinctPfi = 0) := by
  intro w v
  set s1 := (s.sendFire j).modValve j fun v =>
    { v.countFiring k with monitor := { (v.countFiring k).monitor with
      lastFire := some s.timebase } } with hs1
  have hn : s1.noteUpper j = { s1 with group := (s.noteUpper j).group } := by
    unfold State.noteUpper
    rw [show s1.group = s.group from rfl]
    split <;> rfl
  have hj : s1.valve j = { (v.withLastSend s.timebase).countFiring k with
      monitor := { ((v.withLastSend s.timebase).countFiring k).monitor with
        lastFire := some s.timebase } } := by simp [hs1, v]
  have hc := (v.withLastSend s.timebase).countFiring_frame k
  have hcc := (v.withLastSend s.timebase).countFiring_count k
  have hfc : ∀ k', (v.withLastSend s.timebase).firingCount k' = v.firingCount k' := by intro k'; cases k' <;> rfl
  have hph : (s1.valve j).monitor.phase = v.monitor.phase := by rw [hj]; exact hc.2.2.1
  have hu : s.fireOwn k j = if (s1.valve j).monitor.phase = .conducting then s1.noteUpper j
      else ((s1.noteUpper j).modValve j (·.withPhase .conducting)).closeInterval j := by
    rw [← State.noteUpper_valve s1 j j]; rfl
  have hcnt : ∀ k', (s1.valve j).firingCount k' = if k' = k then bump 65535 (v.firingCount k) else v.firingCount k' := by
    intro k'; rw [hj]; have := hcc k'; rw [hfc, hfc] at this; rw [← this]; cases k' <;> rfl
  by_cases hp : v.monitor.phase = .conducting
  · have hw : w = s1.valve j := by show (s.fireOwn k j).valve j = _; rw [hu, if_pos (hph.trans hp), State.noteUpper_valve]
    refine ⟨fun k' => ?_, fun _ => ?_, fun h => absurd hp h⟩
    · rw [hw]; exact hcnt k'
    · rw [hw, hj, hu, if_pos (hph.trans hp), hn]
      exact ⟨hc.1, hc.2.2.2.1, hc.2.2.2.2.2.1, hc.2.2.2.2.2.2.1, rfl⟩
  · have hp' : ¬ (s1.valve j).monitor.phase = .conducting := by rw [hph]; exact hp
    rw [if_neg hp'] at hu
    have hl : (s1.valve j).levels = v.levels := by rw [hj]; exact hc.1
    have hi : (s1.valve j).monitor.indicated = v.monitor.indicated := by
      rw [hj]; exact hc.2.2.2.2.2.1
    have hXv : ((s1.noteUpper j).modValve j (·.withPhase .conducting)).valve j
        = (s1.valve j).withPhase .conducting := by
      rw [State.modValve_valve, if_pos rfl, State.noteUpper_valve]
    have hXp : ∀ f, ((s1.noteUpper j).modValve j (·.withPhase .conducting)).par f = s.par f := by
      intro f; rw [hn]; rfl
    have hXc : ((s1.noteUpper j).modValve j (·.withPhase .conducting)).counter = s.counter := by
      rw [hn]; rfl
    generalize (s1.noteUpper j).modValve j (·.withPhase .conducting) = X at hu hXv hXp hXc
    have h := State.closeInterval_frame X j
    simp only at h
    obtain ⟨h0, _, _, _, _, _, _, h7, _, _⟩ := h
    rw [hXp, hXp, show X.qv j = s.par (Par.qv j) from hXp _, hXc, hXv] at h0 h7
    have e1 : ((s1.valve j).withPhase .conducting).monitor.indicated = v.monitor.indicated := hi
    have e2 : ((s1.valve j).withPhase .conducting).levels = v.levels := hl
    rw [e1, e2] at h0 h7
    refine ⟨fun k' => ?_, fun h => absurd h hp, fun _ => ?_⟩
    · show ((s.fireOwn k j).valve j).firingCount k' = _
      rw [hu, h7, ← hcnt k']; cases k' <;> rfl
    · show ((s.fireOwn k j).valve j).levels = _ ∧ _ ∧ ((s.fireOwn k j).valve j).monitor.indicated = 0
        ∧ ((s.fireOwn k j).valve j).monitor.distinctPfi = 0
      rw [hu, h0, h7]
      exact ⟨rfl, rfl, rfl, rfl⟩
/-! ## Acting on every valve in turn -/

/-- A fold over distinct valves, each step acting on its own valve alone by `g`, acts by `g` on each of
them. `P` is what the steps keep and `g` may rest on. -/
theorem foldl_own (f : State → Valve → State) (g : Valve → ValveRecord → ValveRecord)
    (P : State → Prop) (hP : ∀ s j, P s → P (f s j))
    (hf : ∀ s j i, P s → (f s j).valve i = if i = j then g j (s.valve j) else s.valve i)
    (js : List Valve) (hn : js.Nodup) (s : State) (hs : P s) (i : Valve) :
    (js.foldl f s).valve i = if i ∈ js then g i (s.valve i) else s.valve i := by
  induction js generalizing s with
  | nil => simp
  | cons j js ih =>
    rw [List.foldl_cons, ih (List.nodup_cons.1 hn).2 _ (hP s j hs), hf s j i hs]
    have hj := (List.nodup_cons.1 hn).1
    by_cases h : i = j
    · subst h; simp [hj]
    · simp [h]

theorem allValves_nodup : allValves.Nodup := List.nodup_finRange _

@[simp] theorem mem_allValves (j : Valve) : j ∈ allValves := List.mem_finRange j

/-- A fold over all valves, each step acting on its own valve alone. -/
theorem foldl_allValves (f : State → Valve → State) (g : Valve → ValveRecord → ValveRecord)
    (P : State → Prop) (hP : ∀ s j, P s → P (f s j))
    (hf : ∀ s j i, P s → (f s j).valve i = if i = j then g j (s.valve j) else s.valve i)
    (s : State) (hs : P s) (i : Valve) : (allValves.foldl f s).valve i = g i (s.valve i) := by
  rw [foldl_own f g P hP hf allValves allValves_nodup s hs i, if_pos (mem_allValves i)]

/-- The record of a valve offered a zero (R22). -/
def ValveRecord.offered (v : ValveRecord) (p : Nat) (z : Instant) : ValveRecord :=
  if zeroFits v.schedule.zeros z p then
    { v with schedule := { v.schedule with zeros := v.schedule.zeros ++ [z] } }
  else { v with schedule := { v.schedule with slips := bump Config.count16 v.schedule.slips } }

/-- Prediction offers each valve its zero (R21). -/
theorem State.predictZeros_valve (s : State) (im : Image) (tref : Instant) (p : Nat) (i : Valve) :
    (s.predictZeros im tref p).valve i = (s.valve i).offered p (zeroFrom im i tref p) := by
  unfold State.predictZeros
  refine foldl_allValves _ (fun j v => v.offered p (zeroFrom im j tref p)) (fun _ => True)
    (fun _ _ _ => trivial) (fun s j i _ => ?_) s trivial i
  unfold State.offerZero ValveRecord.offered
  simp only
  split <;> simp

@[simp] theorem State.sendIdle_valve (s : State) (j i : Valve) :
    (s.sendIdle j).valve i
      = if i = j then (s.valve j).withLastSend s.timebase else s.valve i := by
  simp [State.sendIdle]; rfl

/-- The beginning of service sends every channel an IDLE (R37). -/
theorem State.beginService_valve (s : State) (i : Valve) :
    s.beginService.valve i = (s.valve i).withLastSend s.timebase := by
  refine foldl_allValves (fun s j => s.sendIdle j) (fun _ v => v.withLastSend s.timebase)
    (fun u => u.timebase = s.timebase) (fun u j h => ?_) (fun u j i h => ?_) s rfl i
  · rw [(State.sendIdle_rest u j).timebase, h]
  · rw [State.sendIdle_valve, h]

/-! ## Causes handed within a command -/

/-- With no cause handed there is nothing to take. -/
theorem State.settle_nil {s : State} (h : s.handed = []) : s.settle = s := by
  unfold State.settle
  rw [h, List.foldl_nil]
  cases s; subst h; rfl

theorem State.absorbHanded_nil {s : State} (h : s.handed = []) : s.absorbHanded = s := by
  unfold State.absorbHanded
  rw [h, List.foldl_nil]
  cases s; subst h; rfl

/-- A cause held already, or SYNC_LOST in BLOCKED, is not latched (R136). -/
theorem State.latch_held {s : State} {c : TripCause}
    (h : s.group.trips.has c = true ∨ (c = .syncLost ∧ s.group.mode = .blocked)) :
    s.latch c = s := by
  unfold State.latch; rw [if_pos h]

/-- A cause that is latched is added, and acted on unless it is SYNC_LOST beside a BLOCK of its tick
(R136, R137, R15). -/
theorem State.latch_new {s : State} {c : TripCause}
    (h : s.group.trips.has c = false) (h' : ¬ (c = .syncLost ∧ s.group.mode = .blocked)) :
    s.latch c
      = let added := ({ s with group := { s.group with trips := s.group.trips.add c } }).post
          .trip c.bit
        if c = .syncLost ∧ s.blockFollows = true then added else added.actOnTrip c := by
  unfold State.latch State.addTrip
  simp [h, h']

/-- The causes held after one more. -/
theorem TripSet.has_add (t : TripSet) (c c' : TripCause) :
    (t.add c).has c' = (decide (c' = c) || t.has c') := by
  cases c <;> cases c' <;> simp [TripSet.add, TripSet.has]

/-- The set is empty exactly when it holds no cause. -/
theorem TripSet.isEmpty_iff (t : TripSet) : t.isEmpty = true ↔ t = {} := by
  rcases t with ⟨a, b, c, d, e⟩
  cases a <;> cases b <;> cases c <;> cases d <;> cases e <;> decide

end Sys2Proof.Machine
end

