-- ==== Sys2Proof/Laws/Lines.lean ====
section
/-! SUPPORT. Bytes, frames and replies: how a CRC is split off, what a checked frame does, and what a
reply leaves alone. -/

namespace Sys2Proof.Machine

open Sys2Proof

/-! ## Bytes -/

/-- The two bytes of a word put together again. -/
theorem bytes2_append (w : Word16) :
    (w.extractLsb' 8 8 ++ w.extractLsb' 0 8 : BitVec (8 + 8)) = w := by
  apply BitVec.eq_of_getLsbD_eq
  intro i hi
  rw [BitVec.getLsbD_append, BitVec.getLsbD_extractLsb', BitVec.getLsbD_extractLsb']
  by_cases h : i < 8
  · simp [h]
  · rw [if_neg h, show 8 + (i - 8) = i by omega]; simp; omega

/-- The high byte of two put together. -/
theorem append_high (hi lo : Byte) : (hi ++ lo : BitVec (8 + 8)).extractLsb' 8 8 = hi := by
  apply BitVec.eq_of_getLsbD_eq
  intro i hi
  rw [BitVec.getLsbD_extractLsb', BitVec.getLsbD_append, if_neg (by omega),
    show 8 + i - 8 = i by omega]
  simp [hi]

/-- The low byte of two put together. -/
theorem append_low (hi lo : Byte) : (hi ++ lo : BitVec (8 + 8)).extractLsb' 0 8 = lo := by
  apply BitVec.eq_of_getLsbD_eq
  intro i hi
  rw [BitVec.getLsbD_extractLsb', BitVec.getLsbD_append, if_pos (by omega), Nat.zero_add]
  simp [hi]

@[simp] theorem bytes2_length (w : Word16) : (bytes2 w).length = 2 := rfl

@[simp] theorem bytes4_length (w : BitVec 32) : (bytes4 w).length = 4 := rfl

@[simp] theorem withCrc_length (bytes : List Byte) : (withCrc bytes).length = bytes.length + 2 := by
  simp [withCrc]

/-- A frame splits into what precedes its last two bytes, and those two as a CRC. -/
theorem splitCrc_append (bytes : List Byte) (hi lo : Byte) :
    splitCrc (bytes ++ [hi, lo]) = some (bytes, hi ++ lo) := by
  simp [splitCrc]

theorem splitCrc_bytes2 (bytes : List Byte) (w : Word16) :
    splitCrc (bytes ++ bytes2 w) = some (bytes, w) := by
  rw [bytes2, splitCrc_append]
  exact congrArg (fun w => some (bytes, w)) (bytes2_append w)

/-- A frame closed by its own CRC splits into itself and that CRC. -/
theorem splitCrc_withCrc (bytes : List Byte) :
    splitCrc (withCrc bytes) = some (bytes, crc16 bytes) := splitCrc_bytes2 bytes _

/-- Two bytes or more split, and come from the split. -/
theorem splitCrc_eq_some {bytes body : List Byte} {w : Word16}
    (h : splitCrc bytes = some (body, w)) : bytes = body ++ bytes2 w := by
  unfold splitCrc at h
  split at h
  · rename_i lo hi rest e
    cases h
    have hb : bytes = rest.reverse ++ [hi, lo] := by
      have := congrArg List.reverse e
      simpa using this
    rw [hb, bytes2]
    rw [append_high, append_low]
  · cases h

/-! ## A checked frame (R142, R144, R146) -/

theorem State.receive_valid {s : State} {l : Link} {bytes : List Byte} {r : Role}
    {serve : State → State} (h : checkFrame s.gaddr bytes = .valid) :
    s.receive l bytes r serve = serve ((s.hearLink l r).judgeSelection l r) := by
  simp [State.receive, h]

theorem State.receive_foreign {s : State} {l : Link} {bytes : List Byte} {r : Role}
    {serve : State → State} (h : checkFrame s.gaddr bytes = .foreign) :
    s.receive l bytes r serve = s.foreignFrame l := by simp [State.receive, h]

theorem State.receive_error {s : State} {l : Link} {bytes : List Byte} {r : Role}
    {serve : State → State} (h : checkFrame s.gaddr bytes = .error) :
    s.receive l bytes r serve = s.errorFrame l := by simp [State.receive, h]

/-- The address in force is that of the unit, whatever else moves. -/
@[simp] theorem State.gaddr_atInstant (s : State) (t : Instant) :
    (s.atInstant t).gaddr = s.gaddr := rfl

/-- A frame that passes its checks acts at its instant on its link, on the selection, and then as it
is served. -/
theorem State.atTick_receive {s : State} (hl : s.live) {t : Instant} {l : Link}
    {bytes : List Byte} {r : Role} {serve : State → State}
    (h : checkFrame s.gaddr bytes = .valid) :
    s.atTick t (State.receive l bytes r serve) = .next (serve (s.heard t l r)) := by
  rw [State.atTick_live hl, State.receive_valid (by simpa using h)]; rfl

/-- What hearing a frame leaves alone: everything but the links and the selection. -/
theorem State.heard_frame (s : State) (t : Instant) (l : Link) (r : Role) :
    s.heard t l r = { s.atInstant t with
      linkA := (s.heard t l r).linkA, linkB := (s.heard t l r).linkB
      sel := (s.heard t l r).sel } := by
  unfold State.heard State.judgeSelection State.hearLink
  cases l <;> split <;> first | rfl | (split <;> rfl)

@[simp] theorem State.heard_valve (s : State) (t : Instant) (l : Link) (r : Role) (j : Valve) :
    (s.heard t l r).valve j = s.valve j := by rw [State.heard_frame]; rfl

@[simp] theorem State.heard_unit (s : State) (t : Instant) (l : Link) (r : Role) :
    (s.heard t l r).unit = s.unit := by rw [State.heard_frame]; rfl

@[simp] theorem State.heard_group (s : State) (t : Instant) (l : Link) (r : Role) :
    (s.heard t l r).group = s.group := by rw [State.heard_frame]; rfl

@[simp] theorem State.heard_handed (s : State) (t : Instant) (l : Link) (r : Role) :
    (s.heard t l r).handed = [] := by rw [State.heard_frame]; rfl

@[simp] theorem State.heard_counter (s : State) (t : Instant) (l : Link) (r : Role) :
    (s.heard t l r).counter = s.counter := by rw [State.heard_frame]; rfl

@[simp] theorem State.heard_timebase (s : State) (t : Instant) (l : Link) (r : Role) :
    (s.heard t l r).timebase = t := by rw [State.heard_frame]; rfl

@[simp] theorem State.heard_store (s : State) (t : Instant) (l : Link) (r : Role) :
    (s.heard t l r).store = s.store := by rw [State.heard_frame]; rfl

@[simp] theorem State.heard_staging (s : State) (t : Instant) (l : Link) (r : Role) :
    (s.heard t l r).staging = s.staging := by rw [State.heard_frame]; rfl

/-- The cursors are not moved by a frame's arrival. -/
theorem State.heard_cursor (s : State) (t : Instant) (l : Link) (r : Role) (k : Link) :
    ((s.heard t l r).link k).cursor = (s.link k).cursor := by
  unfold State.heard State.judgeSelection State.hearLink
  cases l <;> cases k <;> split <;> first | rfl | (split <;> rfl)

/-! ## Replies (R151) -/

/-- What forming a status frame leaves alone: everything but its link. -/
theorem State.replyStatus_frame (s : State) (l : Link) (a : BitVec 6) :
    ∃ f, s.replyStatus l a = s.modLink l f := by
  unfold State.replyStatus
  split
  · exact ⟨_, rfl⟩
  · exact ⟨_, rfl⟩

/-- What forming a service reply leaves alone: everything but its link and the stored result. -/
theorem State.replyService_frame (s : State) (l : Link) (a : BitVec 6) (code : BitVec 4)
    (result : ServiceResult) (data : List Byte) :
    ∃ f, s.replyService l a code result data
      = { s.modLink l f with
          stored := (s.replyService l a code result data).stored } := by
  unfold State.replyService
  split
  · refine ⟨LinkState.dropReply, ?_⟩; cases l <;> rfl
  · exact ⟨_, rfl⟩

/-- A reply keeps the queue within two waiting replies, behind a reply on the line. -/
theorem LinkState.enqueue_waiting {k : LinkState} {r : Reply} (h : k.replyFull = false)
    (hk : k.onLine = none → k.waiting = []) :
    (k.enqueue r).waiting.length ≤ 2 ∧ (k.enqueue r).onLine ≠ none := by
  have hw : k.waiting.length < 2 := by simpa [LinkState.replyFull] using h
  unfold LinkState.enqueue
  split
  · rename_i e; simp [hk e]
  · rename_i x e; exact ⟨by simp; omega, by simp [e]⟩

end Sys2Proof.Machine
end

