-- ==== Sys2Proof/Laws/Arrivals.lean ====
section
/-! SUPPORT. A BLOCK of the present tick (R15): what the operations on valves, guard and group leave of
the reading, and what it reads in the queue. -/

namespace Sys2Proof.Machine

open Sys2Proof

/-! ## The links are read alike after an operation that keeps the rest -/

theorem RestKept.post {s u : State} (h : RestKept s u) (src : Source) (bits : BitVec 12) :
    RestKept (s.post src bits) (u.post src bits) := by
  refine ⟨?_, fun l => ?_⟩
  · conv_lhs => rw [h.1]
    rfl
  · rw [State.post_link, State.post_link, h.2 l]; rfl

theorem RestKept.modLink {s u : State} (h : RestKept s u) (l : Link) {f : LinkState → LinkState}
    (hf : ∀ k a, f { k with attention := a } = { f k with attention := a }) :
    RestKept (s.modLink l f) (u.modLink l f) := by
  refine ⟨?_, fun k => ?_⟩
  · conv_lhs => rw [h.1]
    cases l <;> rfl
  · rw [State.modLink_link, State.modLink_link]
    split
    · have hl : f (u.link l) = { f (s.link l) with attention := (u.link l).attention } := by
        conv_lhs => rw [h.2 l, hf]
      rw [hl]
    · exact h.2 k

theorem RestKept.select {s u : State} (h : RestKept s u) (l : Link) :
    RestKept { s with sel := l } { u with sel := l } := by
  refine ⟨?_, fun k => by cases k <;> [exact h.2 .a; exact h.2 .b]⟩
  conv_lhs => rw [h.1]

theorem RestKept.silenceReached {s u : State} (h : RestKept s u) (l : Link) :
    u.silenceReached l = s.silenceReached l := by
  unfold State.silenceReached State.silenceSpan
  rw [h.2 l, h.fields.2.1, h.timebase]

theorem RestKept.gaddr {s u : State} (h : RestKept s u) : u.gaddr = s.gaddr := by
  unfold State.gaddr
  rw [h.fields.2.1]

theorem RestKept.judgeSelection {s u : State} (h : RestKept s u) (l : Link) (r : Role) :
    RestKept (s.judgeSelection l r) (u.judgeSelection l r) := by
  unfold State.judgeSelection
  rw [h.fields.2.2.2.2.2.1, h.2 s.sel]
  split
  · exact h
  · split
    · exact (h.select l).post ..
    · exact h.post ..

theorem RestKept.receive {s u : State} (h : RestKept s u) (l : Link) (bytes : List Byte) (r : Role) :
    RestKept (s.receive l bytes r id) (u.receive l bytes r id) := by
  unfold State.receive
  rw [h.gaddr]
  split
  · exact (h.modLink l fun _ _ => rfl).post ..
  · exact h.modLink l fun _ _ => rfl
  · refine RestKept.judgeSelection ?_ l r
    unfold State.hearLink
    rw [h.timebase]
    exact h.modLink l fun _ _ => rfl

theorem RestKept.linksAfter {s u : State} (h : RestKept s u) (i : Instr) :
    RestKept (s.linksAfter i) (u.linksAfter i) := by
  unfold State.linksAfter
  split
  · unfold State.judgeSilence
    rw [h.silenceReached]
    split
    · exact (h.modLink _ fun _ _ => rfl).post ..
    · exact h
  · split
    · exact h.receive ..
    · exact h

theorem RestKept.takesBlock {s u : State} (h : RestKept s u) (i : Instr) :
    u.takesBlock i = s.takesBlock i := by
  unfold State.takesBlock
  rw [h.gaddr, (h.linksAfter i).fields.2.2.2.2.2.1]

theorem RestKept.blockFollowsIn {s u : State} (h : RestKept s u) (queue : List Instr) :
    blockFollowsIn queue u = blockFollowsIn queue s := by
  induction queue generalizing s u with
  | nil => rfl
  | cons i rest ih =>
    simp only [Machine.blockFollowsIn, h.timebase, h.takesBlock, ih (h.linksAfter i)]

/-- The operations on valves, guard and group leave the reading of the tick's BLOCK as it is. -/
theorem RestKept.blockFollows {s u : State} (h : RestKept s u) : u.blockFollows = s.blockFollows := by
  unfold State.blockFollows
  rw [h.fields.2.2.2.2.2.2.2.2.2.2.2, h.blockFollowsIn]

/-! ## The reading of the queue -/

/-- The reading of the links leaves the tick as it is. -/
theorem State.linksAfter_timebase (s : State) (i : Instr) :
    (s.linksAfter i).timebase = s.timebase := by
  have hj : ∀ (u : State) (l : Link) (r : Role), (u.judgeSelection l r).timebase = u.timebase := by
    intro u l r
    unfold State.judgeSelection
    split
    · rfl
    · split <;> rfl
  unfold State.linksAfter State.judgeSilence State.receive State.errorFrame State.foreignFrame
    State.hearLink
  split
  · split <;> simp
  · split
    · split <;> simp [hj]
    · rfl

/-- A BLOCK follows exactly when a command behind commands of this tick alone brings one that is taken as
those commands leave the links. -/
theorem blockFollowsIn_iff (queue : List Instr) (s : State) :
    blockFollowsIn queue s = true ↔ ∃ before o after, queue = before ++ o :: after
      ∧ (∀ i ∈ before ++ [o], tickOf i = some s.timebase)
      ∧ (before.foldl (fun w i => w.linksAfter i) s).takesBlock o = true := by
  induction queue generalizing s with
  | nil => simp [blockFollowsIn]
  | cons i rest ih =>
    simp only [blockFollowsIn, Bool.and_eq_true, Bool.or_eq_true, beq_iff_eq, ih,
      State.linksAfter_timebase]
    constructor
    · rintro ⟨hi, h | ⟨before, o, after, rfl, ht, h⟩⟩
      · exact ⟨[], i, rest, rfl, by simpa using hi, h⟩
      · refine ⟨i :: before, o, after, rfl, ?_, h⟩
        intro k hk
        rcases List.mem_cons.1 hk with rfl | hk
        · exact hi
        · exact ht k hk
    · rintro ⟨before, o, after, he, ht, h⟩
      cases before with
      | nil => cases he; exact ⟨ht _ (by simp), .inl h⟩
      | cons k ks =>
        cases he
        exact ⟨ht _ (by simp), .inr ⟨ks, o, after, rfl,
          fun x hx => ht x (List.mem_cons_of_mem _ hx), h⟩⟩

end Sys2Proof.Machine
end

