-- ==== Sys2Proof/Laws/Inputs.lean ====
section
/-! SUPPORT. Laws of what comes in: an edge of the reference input that finds DISARMED, and a valid
pulse report up to the step that acts on the phase. -/

namespace Sys2Proof.Machine

open Sys2Proof

/-! ## The crossing detector -/

/-- A break of the low run makes tl absent, or finds none to break. -/
theorem State.breakLowRun_cases (s : State) (im : Image) (t : Instant) :
    (∃ tl, s.tracker.detector = .disarmed (some tl) ∧ span tl t ≤ Par.tconf im
      ∧ s.breakLowRun im t = s.setDetector (.disarmed none) true)
    ∨ ((∀ tl, s.tracker.detector = .disarmed (some tl) → Par.tconf im < span tl t)
      ∧ s.breakLowRun im t = s) := by
  unfold State.breakLowRun
  rcases hd : s.tracker.detector with _ | _ | _ | tl
  case disarmed.some =>
    by_cases h : span tl t ≤ Par.tconf im
    · exact .inl ⟨tl, rfl, h, if_pos h⟩
    · exact .inr ⟨fun _ e => (by cases e; omega), if_neg h⟩
  all_goals exact .inr ⟨fun _ e => (by cases e), rfl⟩

/-- A low run starts where DISARMED has none. -/
theorem State.startLowRun_eq (s : State) (t : Instant) :
    s.startLowRun t = if s.tracker.detector = .disarmed none
      then s.setDetector (.disarmed (some t)) false else s := by
  unfold State.startLowRun
  rcases hd : s.tracker.detector with _ | _ | _ | _ <;> simp

/-! ## Supervision -/

/-- Supervision moves the channel of its valve and the attention sets, and nothing else. -/
theorem State.superviseMessage_frame (s : State) (j : Valve) :
    let u := s.superviseMessage j
    u.handed = s.handed ∧ u.group = s.group ∧ u.tracker = s.tracker ∧ u.timebase = s.timebase
      ∧ u.unit = s.unit ∧ (u.valve j).monitor = (s.valve j).monitor
      ∧ (u.valve j).levels = (s.valve j).levels ∧ (u.valve j).schedule = (s.valve j).schedule := by
  unfold State.superviseMessage
  simp only []
  split
  · simp [State.modChannel, State.modValve, State.setValve, State.valve]
  · split <;> simp [State.modChannel, State.modValve, State.setValve, State.valve, State.post]

/-! ## Reports -/

theorem State.isLeg_iff (s : State) (j : Valve) :
    s.isLeg j = true ↔ ∃ g, s.group.legs = some g ∧ j ∈ g.valves := by
  unfold State.isLeg
  split <;> simp_all

theorem State.outsideFreeRegime_iff (s : State) (j : Valve) :
    s.outsideFreeRegime j ↔ s.regime j ≠ .free := by
  unfold State.outsideFreeRegime State.regime
  rw [← State.isLeg_iff]
  split <;> simp_all

theorem State.markOf_conduction (s : State) (j : Valve) :
    s.markOf j = .conduction ↔ s.marksConduction j := by
  unfold State.markOf State.marksConduction
  rw [State.outsideFreeRegime_iff]
  split <;> simp_all

theorem State.markOf_interval (s : State) (j : Valve) :
    s.markOf j = .interval ↔ ¬ s.marksConduction j := by
  rw [← State.markOf_conduction]
  cases s.markOf j <;> simp

/-- What the table answers to an IND or a PFI of a counting level. -/
theorem Level.take_counting {l : Level} {cls : ReportClass} (hc : cls ≠ .lft)
    (hl : l.state.counting = true) (mark : Mark) (b : Instant) (cycle : Word16) :
    let a := l.take cls mark b cycle
    a.level = l.afterIndication cls b (l.indicated || mark == .interval)
      ∧ a.standing = .counting ∧ a.indSet = (mark == .interval && !l.indicated)
      ∧ a.pfiSet = (decide (cls = .pfi) && !l.pfi) ∧ a.indCleared = false := by
  cases cls <;> simp_all [Level.take, Level.takeInd, Level.takePfi, Level.afterIndication, bump]

/-- A report that leaves its record's state hands on nothing: the record and the counts alone move. -/
theorem State.applyAnswer_same {s : State} {j : Valve} {p : Nat} {a : Answer}
    (h : a.level.state = ((s.valve j).level p).state) :
    s.applyAnswer j p a = s.setValve j { s.valve j with
      levels := (s.valve j).levels.set (p - 1) a.level
      monitor := (s.valve j).monitor.afterReport a } := by
  simp [State.applyAnswer, h, ValveRecord.setLevel]

/-- A valid report of a class other than NOISE is supervised, taken whole, and settled. -/
theorem exec_pulseReport {s : State} {t : Instant} {j : Valve} {body : List Byte} {r : PulseReport}
    {im : Image} {cls : ReportClass} (hu : s.unit = .ready im)
    (hr : readMessage (0x81#8 :: body) = some (.report r)) (hc : classify im j t r = cls.pulse) :
    exec (.pulseReport t j body) s
      = .next (((s.atInstant t).superviseMessage j).takeReport j r.position cls r.stamp).settle := by
  have hw : (s.atInstant t).working = some im := by simp [State.working, State.atInstant, hu]
  have ha : ∀ f, s.atTick t f = .next (f (s.atInstant t)) := by
    intro f
    simp [State.atTick, hu, State.atInstant]
  have ht : ((s.atInstant t).superviseMessage j).timebase = t :=
    (State.superviseMessage_frame (s.atInstant t) j).2.2.2.1
  have hr' : readMessage (pulseReportKind :: body) = some (.report r) := hr
  simp only [exec, execPulseReport, ha, State.messageArrives, hw, hr', State.takePulseReport, ht, hc]
  cases cls <;> rfl

end Sys2Proof.Machine
end

