-- ==== Sys2Proof/Laws/Startup.lean ====
section
/-! SUPPORT. Starting the blocks under an image: what judging a silence limit does, what the beginning
of service does, and the blocks as `startBlocks` leaves them. -/

namespace Sys2Proof.Machine

open Sys2Proof

/-! ## The silence limit (R145) -/

/-- Judging a silence limit touches the links alone. -/
theorem State.judgeSilence_frame (s : State) (l : Link) :
    s.judgeSilence l
      = { s with linkA := (s.judgeSilence l).linkA, linkB := (s.judgeSilence l).linkB } := by
  unfold State.judgeSilence
  split
  · cases l <;> rfl
  · rfl

/-- The limit is reached as the unit's silence span has it. -/
theorem State.silenceReached_eq (s : State) (l : Link) :
    s.silenceReached l = (s.link l).overdue s.timebase s.silenceSpan := rfl

/-- The links after a limit was judged. -/
theorem State.judgeSilence_link (s : State) (l k : Link) :
    (s.judgeSilence l).link k = { s.link k with
      silent := if k = l then (s.link k).silent || s.silenceReached l else (s.link k).silent
      attention := ((s.judgeSilence l).link k).attention } := by
  unfold State.judgeSilence
  cases h : s.silenceReached l
  · cases l <;> cases k <;> simp
  · cases l <;> cases k <;> simp [LinkState.post]

/-- The words after a limit was judged. -/
theorem State.judgeSilence_word (s : State) (l k : Link) (src : Source) :
    (s.judgeSilence l).word k src
      = s.word k src
        ||| (if src = .link ∧ s.silenceReached l = true then silentBit l else 0) := by
  unfold State.judgeSilence
  cases h : s.silenceReached l
  · simp
  · have e : ∀ src, (s.modLink l fun k => { k with silent := true }).word k src = s.word k src :=
      fun src => by cases l <;> cases k <;> rfl
    rw [if_pos rfl, State.post_word, e, e]
    by_cases hs : src = .link <;> simp [hs]

/-- The limit of a link is the same after the other link's was judged. -/
theorem State.judgeSilence_other (s : State) {l k : Link} (h : k ≠ l) :
    (s.judgeSilence l).silenceReached k = s.silenceReached k := by
  have ht : (s.judgeSilence l).timebase = s.timebase := by rw [State.judgeSilence_frame]
  have hu : (s.judgeSilence l).silenceSpan = s.silenceSpan := by
    unfold State.silenceSpan
    rw [show (s.judgeSilence l).unit = s.unit by rw [State.judgeSilence_frame]]
  rw [State.silenceReached_eq, State.silenceReached_eq, ht, hu, State.judgeSilence_link]
  simp [LinkState.overdue, h]

/-! ## The beginning of service (R37) -/

theorem foldl_sendIdle (js : List Valve) (s : State) :
    js.foldl (fun s j => s.sendIdle j) s = { s with
      valves := (js.foldl (fun s j => s.sendIdle j) s).valves
      sent := (js.map fun j => Sent.channel j (idleMessage s.timebase)).reverse ++ s.sent } := by
  induction js generalizing s with
  | nil => rfl
  | cons j js ih => rw [List.foldl_cons, ih]; simp [State.sendIdle, State.modValve, State.setValve]

/-- The beginning of service sends one IDLE on every channel and sets the last-send times. -/
theorem State.beginService_frame (s : State) :
    s.beginService = { s with
      valves := Vector.ofFn fun j => (s.valve j).withLastSend s.timebase
      sent := (allValves.map fun j => Sent.channel j (idleMessage s.timebase)).reverse
        ++ s.sent } := by
  have h : s.beginService.valves = Vector.ofFn fun j => (s.valve j).withLastSend s.timebase :=
    valves_ext fun j => by
      rw [show s.beginService.valves[j] = s.beginService.valve j from rfl, State.beginService_valve]
      simp
  rw [← h]
  exact foldl_sendIdle allValves s

/-! ## The blocks started (R16, R81, R107, R121, R145) -/

/-- An event posted and both limits judged: the links alone move. -/
theorem State.judgeBoth_frame (s : State) (src : Source) (bits : BitVec 12) :
    ((s.post src bits).judgeSilence .a).judgeSilence .b = { s with
      linkA := (((s.post src bits).judgeSilence .a).judgeSilence .b).linkA
      linkB := (((s.post src bits).judgeSilence .a).judgeSilence .b).linkB } := by
  rw [State.judgeSilence_frame (s.post src bits) .a, State.judgeSilence_frame _ .b]
  rfl

/-- The links once an event is posted and both limits are judged. -/
theorem State.judgeBoth_link (s : State) (src : Source) (bits : BitVec 12) (l : Link) :
    (((s.post src bits).judgeSilence .a).judgeSilence .b).link l = { s.link l with
      silent := (s.link l).silent || (s.link l).overdue s.timebase s.silenceSpan
      attention := ((((s.post src bits).judgeSilence .a).judgeSilence .b).link l).attention } := by
  rw [State.judgeSilence_link, State.judgeSilence_link, State.judgeSilence_other _ (by simp)]
  cases l <;> simp [State.silenceReached_eq, State.silenceSpan, LinkState.post, LinkState.overdue]

/-- The words once an event is posted and both limits are judged. -/
theorem State.judgeBoth_word (s : State) (src : Source) (bits : BitVec 12) (l : Link)
    (src' : Source) :
    (((s.post src bits).judgeSilence .a).judgeSilence .b).word l src'
      = (s.post src bits).word l src'
        ||| (if src' = .link then
            (if s.linkA.overdue s.timebase s.silenceSpan then linkASilent else 0)
              ||| (if s.linkB.overdue s.timebase s.silenceSpan then linkBSilent else 0)
          else 0) := by
  have ha : (s.post src bits).silenceReached .a = s.linkA.overdue s.timebase s.silenceSpan := by
    simp [State.silenceReached_eq, State.silenceSpan, LinkState.post, LinkState.overdue]; rfl
  have hb : (s.post src bits).silenceReached .b = s.linkB.overdue s.timebase s.silenceSpan := by
    simp [State.silenceReached_eq, State.silenceSpan, LinkState.post, LinkState.overdue]; rfl
  rw [State.judgeSilence_word, State.judgeSilence_word, State.judgeSilence_other _ (by simp), ha,
    hb]
  by_cases h : src' = .link
  · simp [h, silentBit, BitVec.or_assoc]
  · simp [h]

/-- Every block but the Group Mode Controller as `startBlocks` leaves it; only the links are named by
what they are. -/
theorem State.startBlocks_frame (s : State) (im : Image) :
    s.startBlocks im = { s with
      unit := .ready im
      tracker := Tracker.started im s.refHigh s.timebase
      counter := 0
      valves := Vector.ofFn fun j => ValveRecord.started im j (s.valve j).channel.lastSend
      guard := {}
      linkA := (s.startBlocks im).linkA
      linkB := (s.startBlocks im).linkB } :=
  State.judgeBoth_frame _ .sync syncSeeking

/-- The links as `startBlocks` leaves them. -/
theorem State.startBlocks_link (s : State) (im : Image) (l : Link) :
    (s.startBlocks im).link l = { s.link l with
      silent := (s.link l).silent || (s.link l).overdue s.timebase (Par.tsil im * 1000)
      attention := ((s.startBlocks im).link l).attention } := by
  have h := State.judgeBoth_link ({ s with
    unit := .ready im
    tracker := Tracker.started im s.refHigh s.timebase
    counter := 0
    valves := Vector.ofFn fun j => ValveRecord.started im j (s.valve j).channel.lastSend
    guard := {} }) .sync syncSeeking l
  cases l <;> exact h

/-- The words as `startBlocks` leaves them: SEEKING and the silence events posted (R17, R145). -/
theorem State.startBlocks_word (s : State) (im : Image) (l : Link) (src : Source) :
    (s.startBlocks im).word l src
      = (s.post .sync syncSeeking).word l src
        ||| (if src = .link then
            (if s.linkA.overdue s.timebase (Par.tsil im * 1000) then linkASilent else 0)
              ||| (if s.linkB.overdue s.timebase (Par.tsil im * 1000) then linkBSilent else 0)
          else 0) := by
  have h := State.judgeBoth_word ({ s with
    unit := .ready im
    tracker := Tracker.started im s.refHigh s.timebase
    counter := 0
    valves := Vector.ofFn fun j => ValveRecord.started im j (s.valve j).channel.lastSend
    guard := {} }) .sync syncSeeking l src
  cases l <;> exact h

end Sys2Proof.Machine
end

