-- ==== Sys2Proof/Tests/Slice0.lean ====
section
/-! SUPPORT. Tests on small states: ill-formed commands refused, the worked sequences of the spec one
step at a time, and for every statement with hypotheses a state and operands that meet them. -/

namespace Sys2Proof.Tests

open Sys2Proof Sys2Proof.Machine

-- One theorem at a time: each parallel elaboration reserves a stack of its own.
set_option Elab.async false

/-! ## Small states -/

/-- A valid image: every valve with Nv = 8, Rv = 1, PTv = 2; MSUS 2, MDARK 6, QWAIT 500, REFSP 1,000,
BYPTRIP 1, CFLIM 4, TCONF 2,000, HOLDMAX 5, TSIL 40, TNOACT 100, GMIN 1,700, ADVMAX 2,000, ADVDEC 25. -/
def image : Image := Vector.ofFn fun i =>
  ([1, 5, 50, 1500, 8, 1, 2, 8, 1, 2, 8, 1, 2, 8, 1, 2,
   8, 1, 2, 8, 1, 2, 8, 1, 2, 8, 1, 2, 8, 1, 2, 8,
   1, 2, 8, 1, 2, 8, 1, 2, 500, 16500, 1700, 2000, 25, 1, 2, 6,
   500, 1000, 1, 4, 2000, 5, 40, 100, 5, 15, 20, 40, 40, 80, 32, 39232] : List Word16).getD
    i.val 0

/-- A valve with eight SOUND levels on an UP channel. -/
def soundValve : ValveRecord where
  monitor := { tally := { sound := 8 }, margin := .ample }
  channel := { up := true, lastMessage := some 0, lastSend := some 0 }
  levels := List.replicate 8 { state := .sound }

/-- READY in BLOCKED, in step with the reference at 0, link A ACTIVE. -/
def blocked : State := { State.reset with
  unit := .ready image, staging := image, valves := Vector.replicate 12 soundValve
  tracker := { sync := .locked, tref := some 0, deadline := some 225000 }
  linkA := { lastValid := some 0, role := .active, silent := false } }

def inMode (m : Mode) : State := { blocked with group := { mode := m } }

def running : State := inMode .running

/-- RUNNING in BYPASS with the legs {1,4} and {3,6} gated, the next gating at 1,000. -/
def bypassing : State := { blocked with
  group := { mode := .bypass, legs := some ⟨.leg14, .leg36⟩, gatingExpiry := some 1000 } }

/-- The state with valve `j` replaced by `f` of a sound valve. -/
def withValve (s : State) (j : Valve) (f : ValveRecord → ValveRecord) : State :=
  s.setValve j (f soundValve)

/-- The state a command leaves. -/
def run (i : Instr) (s : State) : State :=
  match exec i s with
  | .next u => u
  | _ => State.reset

/-- The body of a PULSE REPORT after its kind byte, with its CRC. -/
def report (p n w1 g w2 : Byte) (stamp : Instant) : List Byte :=
  let b := [p, n, w1, g, w2] ++ bytes4 stamp
  b ++ bytes2 (crc16 (0x81#8 :: b))

/-- An ORDER frame to GADDR 5 with its CRC. -/
def order (r : Role) (clear : Bool) (mode : BitVec 2) (alpha : Word16) : OrderFrame :=
  let f : OrderFrame :=
    { address := 5, role := r, clearTrip := clear, spare := 0, mode := mode, alpha := alpha
      crc := 0 }
  { f with crc := crc16 ((orderBytes f).take 4) }

/-- The head of a SERVICE frame to GADDR 5 with its CRC. -/
def head (r : Role) (q : Request) : ServiceHead :=
  let h : ServiceHead := { address := 5, role := r, spare := 0, crc := 0 }
  { h with crc := crc16 ((serviceBytes h q).take (2 + q.args.length)) }

theorem image_valid : imageValid image = true := by decide +kernel

theorem blocked_addressed : blocked.addressed 5 := by
  intro im h
  cases h
  decide +kernel

/-! ## Ill-formed commands -/

theorem test_kind_81_is_no_unknown_kind :
    (Instr.messageOfUnknownKind 0 0 [0x81, 1]).wellFormed = false := by decide
theorem test_kind_82_is_no_unknown_kind :
    (Instr.messageOfUnknownKind 0 0 [0x82]).wellFormed = false := by decide
theorem test_no_bytes_are_no_frame :
    (Instr.discardedFrameArrives 0 .a []).wellFormed = false := by decide
theorem test_unknown_kind_well_formed :
    (Instr.messageOfUnknownKind 0 0 [0x83]).wellFormed = true := by decide

/-! ## Conventions (00_scope.md) -/

/-- The published check value of this polynomial and start over the digits 1 … 9, which the spec does not
repeat. -/
theorem test_crc_check_value :
    crc16 [0x31, 0x32, 0x33, 0x34, 0x35, 0x36, 0x37, 0x38, 0x39] = 0x29B1 := by decide +kernel
theorem test_reached_wraps : reached 5 0xFFFFFFF0 = true ∧ reached 0xFFFFFFF0 5 = false := by
  decide

/-! ## Resets and start-up -/

theorem test_pin_reset_then_end :
    let s := run (.resetEnd .pinHigh) (run .resetPin running)
    s.unit = .loading 0 ∧ s.startCause = .pin ∧ s.group.mode = .blocked := by decide +kernel
/-- A pin reset during a power-on reset holds the part past the stable supply (R167). -/
theorem test_low_pin_outlasts_the_supply :
    let s := run (.resetEnd .supplyStable) (run .resetPin (run .powerOnReset running))
    s.unit = .held ⟨.pin, .pin⟩ ∧ (run (.resetEnd .pinHigh) s).unit = .loading 0
      ∧ (run (.resetEnd .pinHigh) s).startCause = .pin := by decide +kernel
/-- Once the pin is high a second power-on reset ends with the stable supply (R167). -/
theorem test_second_power_on_ends_with_the_supply :
    let s := run .powerOnReset (run (.resetEnd .pinHigh) (run .resetPin (run .powerOnReset running)))
    s.unit = .held ⟨.power, .powerOn⟩ ∧ (run (.resetEnd .supplyStable) s).unit = .loading 0 := by
  decide +kernel
/-- A power-on reset abandons a STORE in flight (R167). -/
theorem test_power_on_abandons_store :
    (run .powerOnReset { blocked with store := some ⟨0, image⟩ }).store = none := by decide +kernel
/-- Valve 9's Nv raised by 2 without the checksum: the sum of the words is 2 (Worked sequence:
recovering a damaged image). -/
theorem test_damaged_image_is_config_fault :
    (run (.loadingReadDone 50000 (image.set 28 10)) State.reset).unit = .configFault := by
  decide +kernel
theorem test_entry_to_ready_starts_unproven :
    let v := (run (.loadingReadDone 50000 image) State.reset).valve 6
    v.monitor.tally.unproven = 8 ∧ v.channel.lastSend = some 50000 ∧ (v.level 8).state = .unproven
      ∧ (v.level 9).state = .absent := by decide +kernel
theorem test_loading_times_out :
    (run (.loadingTimeout 499999) State.reset).unit = .loading 0
      ∧ (run (.loadingTimeout 500000) State.reset).unit = .configFault := by decide +kernel

/-! ## Synchronism (Worked sequence: phase jump and relock during holdover) -/

def held (sync : SyncState) (tref deadline : Instant) (n relock : Nat) (d : Detector) : State :=
  { blocked with tracker := {
      detector := d, sync := sync, tref := some tref, deadline := some deadline, cycle := 500
      holdover := n, relockRun := relock } }

/-- Step 1. -/
theorem test_deadline_enters_holdover :
    let tr := (run (.deadlineReached 10225000) (held .locked 10000000 10225000 0 0 .armed)).tracker
    tr.sync = .holdover ∧ tr.tref = some 10200000 ∧ tr.cycle = 501 ∧ tr.holdover = 1
      ∧ tr.deadline = some 10425000 := by decide +kernel
/-- The same fault with a 30-degree jump, the deadline at 11,225,000. -/
theorem test_sixth_deadline_loses_sync :
    let s := run (.deadlineReached 11225000) (held .holdover 11000000 11225000 5 0 .armed)
    s.tracker.sync = .lost ∧ s.tracker.holdover = 6 ∧ s.group.trips.syncLost = false := by
  decide +kernel
/-- Step 3: M = 130,000 lies outside the window. -/
theorem test_crossing_outside_window_is_discarded :
    let tr := (run (.crossingConfirmed 10332000)
      (held .holdover 10200000 10425000 1 0 (.confirming 10330000))).tracker
    tr.disturbances = 1 ∧ tr.tref = some 10200000 ∧ tr.detector = .disarmed none := by
  decide +kernel
/-- Step 5: M = 213,889 moves P to 201,736. -/
theorem test_crossing_in_window_is_filtered :
    let tr := (run (.crossingConfirmed 10615889)
      (held .holdover 10400000 10625000 2 0 (.confirming 10613889))).tracker
    tr.period = 201736 ∧ tr.relockRun = 1 ∧ tr.deadline = some 10840842
      ∧ tr.sync = .holdover := by decide +kernel
/-- Step 2: a spike of 800 ticks. -/
theorem test_spike_is_dropped :
    let s := run (.crossingCandidate 10301000) (held .holdover 10200000 10425000 1 0 .armed)
    s.tracker.detector = .confirming 10301000
      ∧ (run (.candidateDropped 10301800) s).tracker.detector = .armed := by decide +kernel
/-- Step 3: low from 10,345,000, re-armed at 10,347,000. -/
theorem test_low_run_rearms :
    let s := run (.lowRunStart 10345000) (held .holdover 10200000 10425000 1 0 (.disarmed none))
    (run (.detectorRearm 10346999) s).tracker.detector = .disarmed (some 10345000)
      ∧ (run (.detectorRearm 10347000) s).tracker.detector = .armed
      ∧ (run (.lowRunBroken 10346999) s).tracker.detector = .disarmed none := by decide +kernel

/-- An APPLY at 9 with the input low, and the input rising at the same tick after it: tl is absent, and
TCONF low ticks from the next fall are needed (R1, R165). -/
theorem test_rise_at_the_starting_tick :
    let s := run (.configApply 9 .a (head .active .configApply)) { blocked with
      tracker := { blocked.tracker with detector := .armed } }
    let u := run (.crossingCandidate 9) s
    s.tracker.detector = .disarmed (some 9) ∧ u.tracker.detector = .disarmed none
      ∧ u.refHigh = true ∧ (run (.lowRunBroken 9) s).tracker.detector = .disarmed none
      ∧ (run (.detectorRearm 2009) u).tracker.detector = .disarmed none
      ∧ (run (.candidateDropped 9) { u with refHigh := true }).tracker.detector
          = .disarmed (some 9) := by decide +kernel

/-! ## Firing (Worked sequence: one cycle of an inverter valve) -/

/-- Valve 10 in RUNNING with α_order 14,200, its zero 5,321,111 queued, six of seven levels
indicated. -/
def valve10 : State := { withValve running 9 (fun v => { v with
  schedule := { zeros := [5321111] }
  monitor := { v.monitor with indicated := 6, scheduled := 3000, lastFire := some 4600000 }
  levels := (List.replicate 6 { state := .sound, indicated := true })
    ++ List.replicate 2 { state := .sound } }) with order := { alpha := 14200, requested := .run } }

theorem test_take_up_schedules :
    let c := ((run (.takeUp 5321111 9) valve10).valve 9).schedule
    c.fireAt = some 5400000 ∧ c.deadline = some 5487778 ∧ c.waitLength = 2778 ∧ c.alphaEff = 14200 :=
  by decide +kernel
/-- α_order 14,500 less A = 300 (Worked computation: one valve and its successor). -/
theorem test_take_up_subtracts_advance :
    let s := { valve10 with
      guard := { advance := 300 }, order := { alpha := 14500, requested := .run } }
    ((run (.takeUp 5321111 9) s).valve 9).schedule.alphaEff = 14200 := by decide +kernel
/-- Step 1: the firing is held. -/
def held10 : State := run (.firingInstant 5400000 9) (run (.takeUp 5321111 9) valve10)
theorem test_short_valve_is_held :
    (held10.valve 9).schedule.expiry = some 5402778
      ∧ (held10.valve 9).monitor.phase = .blocking ∧ held10.sent = [] := by decide +kernel
theorem test_wait_expiry_forces :
    let v := (run (.forcedFiring 5402778 9) held10).valve 9
    v.monitor.forced = 1 ∧ v.monitor.phase = .conducting ∧ v.monitor.lastFire = some 5402778 := by
  decide +kernel
/-- Step 2: the indication that brings the count to Qv fires the valve LATE. -/
theorem test_late_firing :
    let v := (run (.pulseReport 5400900 9 (report 7 1 10 0 0 5400400)) held10).valve 9
    v.monitor.late = 1 ∧ v.monitor.phase = .conducting ∧ v.monitor.indicated = 0
      ∧ v.schedule.fireAt = none ∧ (v.level 8).miss = 1 := by decide +kernel
/-- Step 7: block-back at 5,478,000 against 5,487,778 gives γ = 1,760, above GMIN = 1,700. -/
theorem test_block_back_measures :
    let s := { valve10 with
      guard := { advance := 120 }
      valves := valve10.valves.set 9 { valve10.valve 9 with
        schedule := { deadline := some 5487778 }
        monitor := { (valve10.valve 9).monitor with phase := .commutating } } }
    let u := run (.pulseReport 5478400 9 (report 8 1 10 0 0 5478000)) s
    (u.valve 9).lastGamma = some 1760 ∧ (u.valve 9).monitor.blockBack = some 5478000
      ∧ u.guard.advance = 95 := by decide +kernel
/-- Step 8 of the AC dip: valve 3 fails at its deadline. -/
theorem test_failed_commutation :
    let u := run (.extinctionDeadline 30058333 2) (withValve running 2 fun v => { v with
      schedule := { deadline := some 30058333 }
      monitor := { v.monitor with phase := .commutating } })
    (u.valve 2).commFailures = 1 ∧ (u.valve 2).monitor.phase = .conducting
      ∧ u.guard.advance = 2000 ∧ u.guard.mark = true := by decide +kernel
/-- Step 9 of the trip into bypass: the gating expiry moves on by 33,333 ticks. -/
theorem test_gating_moves_on :
    let s := { bypassing with
      group := { bypassing.group with gatingExpiry := some 30835333 } }
    let u := run (.bypassGating 30835333) s
    u.group.gatingExpiry = some 30868666 ∧ (u.valve 0).bypasses = 1 ∧ (u.valve 6).bypasses = 1
      ∧ (u.valve 5).bypasses = 1 ∧ (u.valve 11).bypasses = 1 ∧ (u.valve 1).bypasses = 0 := by
  decide +kernel

/-! ## Valve channels (Worked sequence: a channel from start to loss) -/

def proving (n : Nat) (m : Instant) : State := withValve blocked 6 fun v =>
  { v with channel := { run := n, lastMessage := some m, lastSend := some 50000 } }

/-- Step 4: the eighth OIU IDLE. -/
theorem test_eighth_idle_takes_up :
    ((run (.oiuIdle 56800 6 (bytes2 (crc16 [0x82]))) (proving 7 56300)).valve 6).channel.up
      = true := by decide +kernel
/-- Step 3: a bad CRC breaks the run. -/
theorem test_bad_crc_breaks_run :
    let c := ((run (.oiuIdle 53150 6 [0, 0]) (proving 6 52800)).valve 6).channel
    c.run = 0 ∧ c.errors = 1 ∧ c.lastMessage = some 52800 := by decide +kernel
theorem test_unknown_kind_is_an_error :
    ((run (.messageOfUnknownKind 53150 6 [0x83, 1, 2]) (proving 6 52800)).valve 6).channel.errors
      = 1 := by decide +kernel
/-- Step 2: the first IDLE after that of 50,000. -/
theorem test_idle_after_500_ticks :
    (run (.vc12Idle 50500 6) (proving 0 0)).sent = [.channel 6 (idleMessage 50500)]
      ∧ (run (.vc12Idle 50499 6) (proving 0 0)).sent = [] := by decide +kernel
/-- Step 9: the last valid message at 9,310,000. -/
theorem test_silent_channel_goes_down :
    let s := withValve blocked 6 fun v => { v with
      channel := { up := true, lastMessage := some 9310000 } }
    let u := run (.channelDown 9312000 6) s
    (u.valve 6).channel.up = false ∧ u.group.trips.channel = true
      ∧ ((run (.channelDown 9311999 6) s).valve 6).channel.up = true := by decide +kernel

/-! ## Links (Worked sequence: changeover between the control systems) -/

def linked : State := { running with
  linkA := { lastValid := some 50000000, role := .active, silent := false }
  linkB := { lastValid := some 50045000, silent := false }
  lastTaken := some 50000000 }

/-- Step 3. -/
theorem test_link_falls_silent :
    (run (.linkSilence 50040000 .a) linked).linkA.silent = true
      ∧ (run (.linkSilence 50039999 .a) linked).linkA.silent = false := by decide +kernel
/-- Step 5. -/
theorem test_active_frame_switches_from_silent_link :
    let u := run (.orderFrame 50055000 .b (order .active false 1 14500))
      (run (.linkSilence 50040000 .a) linked)
    u.sel = .b ∧ u.lastTaken = some 50055000 ∧ u.order = { alpha := 14500, requested := .run }
      ∧ u.group.mode = .running ∧ u.linkB.onLine.isSome := by decide +kernel
/-- Without a takeover. -/
theorem test_control_loss_takes_bypass :
    let u := run (.controlLoss 50100000) linked
    u.group.mode = .bypass ∧ u.group.trips.controlLoss = true
      ∧ (run (.controlLoss 50099999) linked).group.mode = .running := by decide +kernel
/-- RUNNING with BYPTRIP = 1 at the entry to LOST, `queue` waiting (R15). -/
def losing (queue : List Instr) : State := { held .holdover 11000000 11225000 5 0 .armed with
  group := { mode := .running }, pending := queue }

/-- SYNC_LOST beside a BLOCK of its tick is latched, and no BYPASS message is sent. -/
theorem test_sync_lost_beside_a_block :
    let block : Instr := .orderFrame 11225000 .a (order .active false 0 14500)
    let u := run (.deadlineReached 11225000) (losing [block])
    let w := run block { u with pending := [] }
    u.group.mode = .running ∧ u.group.trips.syncLost = true ∧ w.group.mode = .blocked
      ∧ w.group.trips.syncLost = true ∧ w.sent = [] := by decide +kernel
/-- A RUN, a STANDBY BLOCK, a damaged BLOCK and a BLOCK of the next tick defer nothing: BYPASS is entered
with its four messages, and the RUN is then refused with SYNC. -/
theorem test_sync_lost_beside_other_orders :
    let after (f : OrderFrame) (t : Instant) :=
      run (.deadlineReached 11225000) (losing [.orderFrame t .a f])
    let goes (u : State) : Bool := decide (u.group.mode = .bypass ∧ u.sent.length = 4)
    goes (after (order .active false 1 14500) 11225000)
      ∧ goes (after (order .standby false 0 14500) 11225000)
      ∧ goes (after { order .active false 0 14500 with crc := 0 } 11225000)
      ∧ goes (after (order .active false 0 14500) 11225001)
      ∧ (run (.orderFrame 11225000 .a (order .active false 1 14500))
          (after (order .active false 1 14500) 11225000)).group.refusal = some .sync := by
  decide +kernel
theorem test_reply_is_sent_and_next_follows :
    let r : Reply := .service ⟨5, 10, .none, .ok, 0, []⟩
    let u := run (.replySent 9 .a) { blocked with
      linkA := { blocked.linkA with onLine := some r, waiting := [r] } }
    u.linkA.onLine = some r ∧ u.linkA.waiting = [] ∧ u.sent = [.reply .a r.bytes]
      ∧ r.bytes.length = 9 := by decide +kernel
theorem test_foreign_and_damaged_frames_are_counted :
    (run (.discardedFrameArrives 9 .a (orderBytes { order .active false 1 14500 with crc := 0 }))
      blocked).linkA.errors = 1
      ∧ (run (.discardedFrameArrives 9 .a (withCrc [0, 0, 0, 0])) blocked).linkA.foreign = 1 := by
  decide +kernel

/-! ## Service requests -/

/-- The reply on the line of link A. -/
def onLine (s : State) : Option (ServiceResult × Nat × Nat) :=
  match s.linkA.onLine with
  | some (.service r) => some (r.result, r.counter, r.bytes.length)
  | _ => none

theorem test_look_up_level :
    onLine (run (.lookUpLevel 9 .a (head .standby (.lookUpLevel 1 8)) 1 8) blocked)
        = some (.ok, 0, 27)
      ∧ onLine (run (.lookUpLevel 9 .a (head .standby (.lookUpLevel 1 9)) 1 9) blocked)
        = some (.badAddress, 0, 9) := by decide +kernel
theorem test_look_up_valve_out_of_range :
    onLine (run (.lookUpValve 9 .a (head .standby (.lookUpValve 13)) 13) State.reset)
      = some (.badAddress, 0, 9) := by decide +kernel
theorem test_seek_to_an_absent_record :
    let u := run (.seek 9 .a (head .standby (.seek 12 80)) 12 80) blocked
    u.linkA.cursor = ⟨11, 80⟩ ∧ onLine u = some (.ok, 0, 11) := by decide +kernel
/-- A walk that reaches (12, 80) wraps its cursor. -/
theorem test_walk_to_the_end :
    let s := withValve { blocked with counter := 42 } 11 fun v =>
      v.setLevel 5 { state := .faulted, stamp := 42 }
    let u := run (.walk 9 .a (head .standby (.walk 41)) 41) s
    u.linkA.cursor = ⟨0, 1⟩ ∧ onLine u = some (.ok, 42, 30) := by decide +kernel
/-- Steps 9 to 11 of a valve that loses its redundancy: valve 3 with level 2 FAULTED, level 6 DARK, the
counter at 503. -/
def worn : State := { withValve blocked 2 (fun v => { v with
  monitor := { v.monitor with
    tally := { sound := 6, dark := 1, faulted := 1 }, margin := .exhausted }
  levels := (v.levels.set 1 { state := .faulted, faultCount := 1, firstFault := some 1208 }).set 5
    { state := .dark, miss := 6 } }) with counter := 503 }
theorem test_retire_of_a_failed_level :
    let u := run (.retire 9 .a (head .active (.retire 3 2)) 3 2) worn
    let l := (u.valve 2).level 2
    l.state = .retired ∧ l.retiredBy = some .a ∧ l.stamp = 504 ∧ (u.valve 2).failed = 2
      ∧ onLine u = some (.ok, 504, 27) := by decide +kernel
theorem test_restore_of_a_dark_level :
    let u := run (.restore 9 .a (head .active (.restore 3 6)) 3 6) worn
    let v := u.valve 2
    (v.level 6).state = .unproven ∧ (v.level 6).miss = 0 ∧ (v.level 6).stamp = 504
      ∧ v.monitor.margin = .atLimit ∧ v.monitor.tally.unproven = 1 := by decide +kernel
theorem test_clear_counts_keeps_the_state :
    let l := ((run (.clearCounts 9 .a (head .active (.clearCounts 3 2)) 3 2) worn).valve 2).level 2
    l.state = .faulted ∧ l.faultCount = 0 ∧ l.firstFault = none ∧ l.stamp = 504 := by
  decide +kernel
theorem test_config_read_of_eight_words :
    onLine (run (.configRead 9 .a (head .standby (.configRead 56 8)) 56 8) blocked)
        = some (.ok, 0, 27)
      ∧ onLine (run (.configRead 9 .a (head .standby (.configRead 57 8)) 57 8) blocked)
        = some (.badAddress, 0, 9) := by decide +kernel
/-- Steps 2 to 4 of recovering a damaged image: the checksum lowered by 2, then applied. -/
theorem test_recovery_by_write_and_apply :
    let s := run (.loadingReadDone 50000 (image.set 28 10)) State.reset
    let sum := image[63] - 2
    let data : Vector Word16 8 := Vector.replicate 8 sum
    let s := run (.configWrite 60000 .a (head .active (.configWrite 63 1 data)) 63 1 data)
      { s with linkA := { role := .active } }
    let u := run (.configApply 61000 .a (head .active .configApply)) s
    s.unit = .configFault ∧ u.isReady = true ∧ (u.valve 8).levels.length = 10 := by decide +kernel
theorem test_store_in_flight_refuses_reset :
    let s := run (.configStore 9 .a (head .active .configStore)) blocked
    s.store = some ⟨9, image⟩
      ∧ (run (.serviceReset 10 .a (head .active .reset)) s).store = some ⟨9, image⟩
      ∧ (run (.storeComplete 1000009) s).stored = .stored
      ∧ (run (.storeFailed 1000009 .timeout) s).stored = .failed
      ∧ (run (.storeFailed 1000008 .timeout) s).stored = .none := by decide +kernel
theorem test_service_reset :
    let u := run (.serviceReset 9 .a (head .active .reset)) blocked
    u.unit = .loading 0 ∧ u.startCause = .service ∧ u.linkA.onLine = none := by decide +kernel

/-! ## Witnesses: states and operands that meet the hypotheses of each statement -/

/-- In reset, held by the pin. -/
def inReset : State := { State.reset with unit := .held ⟨.pin, .pin⟩ }

def heldOver (sync : SyncState) (holdover : Nat) : State := held sync 0 225000 holdover 0 .armed

/-- A candidate at `t0`, the last reference at 0. -/
def confirming (sync : SyncState) (good relock : Nat) (t0 : Instant) : State :=
  { blocked with tracker := {
      detector := .confirming t0, sync := sync, tref := some 0, deadline := some 225000
      goodRun := good, relockRun := relock } }

theorem reset_live : State.reset.live := by intro c h; cases h
theorem blocked_live : blocked.live := State.live_ready rfl

theorem witness_StepTakesTheFrontCommand :
    { State.reset with pending := [.resetPin, .resetEnd .pinHigh] }.pending
      = .resetPin :: [.resetEnd .pinHigh] := rfl
theorem witness_EmptyQueuePassesOneTick :
    State.reset.pending = [] ∧ State.reset.live ∧ inReset.pending = []
      ∧ inReset.unit = .held ⟨.pin, .pin⟩ :=
  ⟨rfl, reset_live, rfl, rfl⟩
theorem witness_ResetsGiveEveryBlockItsValues :
    blocked.live ∧ inReset.unit = .held ⟨.pin, .pin⟩
      ∧ (run .powerOnReset running).unit = .held ⟨.power, .powerOn⟩
      ∧ (run .powerOnReset inReset).unit = .held ⟨.power, .both⟩ :=
  ⟨blocked_live, rfl, rfl, rfl⟩
theorem witness_HeldPartChangesNothing :
    inReset.unit = .held ⟨.pin, .pin⟩ ∧ Instr.crossingCandidate 3 ≠ .powerOnReset
      ∧ Instr.crossingCandidate 3 ≠ .resetPin ∧ ∀ e, Instr.crossingCandidate 3 ≠ .resetEnd e :=
  ⟨rfl, by decide, by decide, fun _ h => by cases h⟩
/-- The last tick at which the words count is the one at which the read is abandoned. -/
theorem witness_ConfigurationReadEnds :
    State.reset.unit = .loading 0 ∧ span 0 500000 ≤ 500000 ∧ imageValid image = true
      ∧ imageValid (image.set 28 10) = false ∧ reached 500000 (after 0 500000) = true := by
  decide +kernel

/-! ### Synchronism -/

def detecting (d : Detector) : State := held .locked 0 225000 0 0 d

theorem witness_DetectorFollowsTheInput :
    (detecting .armed).unit = .ready image ∧ (detecting .armed).tracker.detector = .armed
      ∧ (detecting (.confirming 7)).tracker.detector = .confirming 7
      ∧ 1 ≤ span 7 8 ∧ span 7 2007 ≤ Par.tconf image ∧ span 7 7 = 0
      ∧ (detecting (.disarmed none)).tracker.detector = .disarmed none
      ∧ (detecting (.disarmed (some 7))).tracker.detector = .disarmed (some 7)
      ∧ reached 2007 (after 7 (Par.tconf image)) = true
      ∧ reached 2006 (after 7 (Par.tconf image)) = false := by decide +kernel
/-- The window about Pnom = 200,000 runs from 183,334 to 216,666. -/
theorem witness_ConfirmedCrossingIsJudged :
    let lo := confirming .locked 0 0 183334
    let hi := confirming .holdover 0 1 216666
    lo.unit = .ready image ∧ lo.tracker.detector = .confirming 183334
      ∧ reached 185334 (after 183334 (Par.tconf image)) = true ∧ lo.tracker.tref = some 0
      ∧ Par.pnom image ≤ span 0 183334 + Par.pnom image / 12 ∧ lo.tracker.sync = .locked
      ∧ span 0 216666 ≤ Par.pnom image + Par.pnom image / 12 ∧ hi.tracker.sync = .holdover
      ∧ (confirming .holdover 0 0 216666).tracker.relockRun = 0 ∧ 1 ≤ hi.tracker.relockRun
      ∧ (confirming .seeking 2 0 200000).tracker.goodRun < 3
      ∧ 3 ≤ (confirming .lost 3 0 200000).tracker.goodRun := by decide +kernel
theorem witness_ConfirmedCrossingIsJudged_outside :
    (∀ r, (confirming .lost 3 0 216667).tracker.tref = some r →
      Par.pnom image + Par.pnom image / 12 < span r 216667)
    ∧ (∀ r, (confirming .holdover 0 0 183333).tracker.tref = some r →
      span r 183333 + Par.pnom image / 12 < Par.pnom image)
    ∧ ∀ r, { confirming .seeking 0 0 9 with
        tracker := { detector := .confirming 9 } }.tracker.tref = some r → False := by
  refine ⟨fun r h => ?_, fun r h => ?_, fun r h => ?_⟩ <;> cases h <;> decide +kernel
/-- HOLDMAX = 5: the count goes to 5 or past it. -/
theorem witness_DeadlinePlacesASyntheticReference :
    (heldOver .locked 0).unit = .ready image ∧ (heldOver .locked 0).tracker.tref = some 0
      ∧ (heldOver .locked 0).tracker.deadline = some 225000 ∧ reached 225000 225000 = true
      ∧ (heldOver .holdover 4).tracker.sync = .holdover
      ∧ min 16 ((heldOver .holdover 4).tracker.holdover + 1) ≤ Par.holdmax image
      ∧ Par.holdmax image < min 16 ((heldOver .holdover 5).tracker.holdover + 1)
      ∧ (heldOver .lost 6).tracker.sync = .lost := by decide +kernel
/-- D = 4 and D = −4: the halves. -/
theorem witness_PeriodFilterRoundsAwayFromZero :
    (8 * ((periodFilter 200000 200004 : Int) - 200000) - (200004 - 200000) = 4)
      ∧ (8 * ((periodFilter 200000 199996 : Int) - 200000) - (199996 - 200000) = -4) := by
  decide +kernel
/-- The zero 201,500 ticks after the reference joins an empty queue, and one whose zero lies 50,000 ticks
earlier, and slips behind one a tick later; CFLIM = 4. -/
theorem witness_ReferenceReachesEveryReceiver :
    let z := after 0 (roundedQuotient ((36000 + (Par.phi0 image + 0 * 3000) % 36000) * 200000) 36000)
    (blocked.valve 0).schedule.zeros = []
      ∧ z = after (z - 50000) (200000 / 4)
      ∧ ¬ (z = after (z - 49999) (200000 / 4) ∨ later z (after (z - 49999) (200000 / 4)) = true)
      ∧ { blocked with guard := { mark := true, failCycles := 3 } }.guard.mark = true
      ∧ blocked.par Par.cflim ≤ min 255 (3 + 1)
      ∧ blocked.group.mode ≠ .deblocking ∧ blocked.handed = [] := by decide +kernel

def deblocking : State := { blocked with
  group := { mode := .deblocking, origin := some .fromBlocked } }

theorem blocked_fits : blocked.blocksFit := by
  refine ⟨rfl, fun j => ?_, fun j => ?_⟩
  · revert j; decide +kernel
  · revert j; decide +kernel
/-- No cause, with a fit and an unfit group; then PERSISTENT_CF at CFLIM = 4, the free order either way. -/
theorem witness_FirstReferenceRechecksDeblocking :
    deblocking.unit = .ready image ∧ deblocking.group.mode = .deblocking ∧ deblocking.handed = []
      ∧ ¬ (deblocking.guard.mark = true ∧ Par.cflim image ≤ 0)
      ∧ deblocking.fit
      ∧ (withValve deblocking 11 fun v => { v with channel := {} }).deblockFault = some .channel :=
  ⟨rfl, rfl, rfl, by decide +kernel, ⟨rfl, rfl, blocked_fits⟩, by decide +kernel⟩
theorem witness_FirstReferenceRechecksDeblocking_cause :
    let s (k : Nat) (byptrip : Word16) : State := { deblocking with
      guard := { mark := true, failCycles := 3 }, choices := [k]
      unit := .ready (image.set 50 byptrip) }
    (s 0 1).guard.mark = true ∧ Par.cflim (image.set 50 1) ≤ min 255 ((s 0 1).guard.failCycles + 1)
      ∧ (s 0 1).group.trips.has .persistentCf = false ∧ (s 0 1).choices.headD 0 % 2 = 0
      ∧ (s 1 1).choices.headD 0 % 2 ≠ 0 ∧ Par.byptrip (image.set 50 1) = 1
      ∧ Par.byptrip (image.set 50 0) ≠ 1
      ∧ ((s 0 1).handReference (image.set 50 1) 0).group.refusal = some .trip
      ∧ ((s 1 1).handReference (image.set 50 1) 0).group.mode = .bypass
      ∧ ((s 1 0).handReference (image.set 50 0) 0).group.mode = .running
      ∧ { deblocking with group := { deblocking.group with
            trips := { persistentCf := true } } }.deblockFault = some .trip := by
  decide +kernel
theorem witness_FirstReferenceRechecksDeblocking_handed :
    let s : State := { deblocking with
      handed := [.syncLost], choices := [1], tracker := { blocked.tracker with sync := .lost } }
    s.handed = [.syncLost] ∧ s.guard.mark = false ∧ s.deblockFault = some .sync
      ∧ (s.handReference image 0).group.trips = {} := by decide +kernel
/-- SYNC_LOST beside a BLOCK of its tick, taken first and taken after the recheck. -/
theorem witness_FirstReferenceRechecksDeblocking_block :
    let s (k : Nat) : State := { deblocking with
      handed := [.syncLost], choices := [k], pending := [.orderFrame 0 .a (order .active false 0 0)] }
    (s 0).blockFollows = true ∧ (s 1).deblockFault = none ∧ Par.byptrip image = 1
      ∧ ({ s 0 with group := { (s 0).group with trips := { syncLost := true } } }).deblockFault
          = some .trip
      ∧ ((s 0).handReference image 0).group.mode = .blocked
      ∧ ((s 1).handReference image 0).group.mode = .running := by decide +kernel

/-! ### Firing -/

/-- Valve 10 with its zero at 7 queued in mode `m`, and the schedule `f` gives it. -/
def queued (m : Mode) (f : Schedule → Schedule) : State :=
  { withValve (inMode m) 9 (fun v => { v with schedule := f { zeros := [7, 200007] } }) with
    order := { alpha := 9000, requested := .run }, guard := { advance := 2000 } }

theorem witness_TakeUpLatchesTheEffectiveAngle :
    let s := queued .running id
    s.unit = .ready image ∧ imageValid image = true
      ∧ (s.valve 9).schedule.zeros = 7 :: [200007] ∧ reached 7 7 = true
      ∧ Par.guard image = 1 ∧ s.group.mode = .running ∧ 9000 ≤ s.order.alpha.toNat := by
  decide +kernel
theorem witness_TakeUpOutsideRunning :
    let s := queued .blocked id
    s.unit = .ready image ∧ s.group.mode ≠ .running ∧ (s.valve 9).schedule.zeros = 7 :: [200007]
      ∧ reached 7 7 = true ∧ (s.valve 9).monitor.phase = .blocking
      ∧ bypassing.group.mode = .bypass ∧ bypassing.group.legs = some ⟨.leg14, .leg36⟩
      ∧ (4 : Valve) ∉ Legs.valves ⟨.leg14, .leg36⟩ ∧ (0 : Valve) ∈ Legs.valves ⟨.leg14, .leg36⟩
      ∧ (queued .deblocking id).group.mode = .deblocking := by decide +kernel
theorem witness_TakeUpInRunningSchedules :
    let s := queued .running fun c => { c with fireAt := some 200100, deadline := some 400000 }
    s.unit = .ready image ∧ s.group.mode = .running ∧ (s.valve 9).schedule.zeros = 7 :: [200007]
      ∧ reached 7 7 = true ∧ (queued .running id).nothingUnissued 9
      ∧ (s.valve 9).schedule.fireAt.isSome :=
  ⟨rfl, rfl, rfl, rfl, ⟨rfl, rfl⟩, rfl⟩

/-- RUNNING with the firing of valve 10 scheduled at 900, `n` of its Qv = 7 levels indicated. -/
def scheduled (n : Nat) (phase : Phase) (expiry : Option Instant) : State :=
  withValve running 9 fun v => { v with
    schedule := { fireAt := some 900, expiry := expiry, waitLength := 2778, deadline := some 80000 }
    monitor := { v.monitor with indicated := n, phase := phase }
    levels := List.replicate n { state := .sound, indicated := true }
      ++ List.replicate (8 - n) { state := .sound } }

theorem witness_FiringInstantChecksReadiness :
    let s := scheduled 6 .blocking none
    s.unit = .ready image ∧ s.group.mode = .running ∧ (s.valve 9).schedule.fireAt = some 900
      ∧ (s.valve 9).schedule.expiry = none ∧ reached 900 900 = true
      ∧ (s.valve 9).monitor.indicated < Par.nv 9 image - Par.rv 9 image
      ∧ ¬ ((scheduled 7 .blocking none).valve 9).monitor.indicated
          < Par.nv 9 image - Par.rv 9 image := by decide +kernel
theorem witness_WaitExpiryForcesTheFiring :
    (scheduled 6 .blocking (some 3678)).live
      ∧ ((scheduled 6 .blocking (some 3678)).valve 9).schedule.expiry = some 3678
      ∧ reached 3678 3678 = true := ⟨State.live_ready rfl, rfl, rfl⟩
theorem witness_DeadlineFailsACommutatingValve :
    let s := scheduled 0 .commutating none
    s.unit = .ready image ∧ s.group.mode = .running ∧ (s.valve 9).schedule.deadline = some 80000
      ∧ reached 80000 80000 = true ∧ (s.valve 9).monitor.phase = .commutating
      ∧ ((scheduled 0 .conducting none).valve 9).monitor.phase ≠ .commutating := by decide +kernel
/-- Valve 2 fires with its predecessor 10 CONDUCTING, before and at D10. -/
theorem witness_FireMessageActsOnItsValve :
    let s := scheduled 0 .conducting none
    predecessor 1 = 9 ∧ s.group.mode = .running ∧ (s.valve 9).monitor.phase = .conducting
      ∧ (s.valve 1).monitor.phase ≠ .conducting
      ∧ (∃ d, (s.valve 9).schedule.deadline = some d ∧ reached 80000 d = true)
      ∧ ∀ d, (s.valve 9).schedule.deadline = some d → reached 79999 d = false := by
  refine ⟨by decide, rfl, rfl, by decide, ⟨80000, rfl, rfl⟩, fun d h => ?_⟩
  cases h; rfl
theorem witness_FireMaskHoldsTheInstalledNotRetired :
    (fireMask (blocked.valve 2).levels).getLsbD (80 - 1) = true
      ∧ (fireMask (blocked.valve 2).levels).getLsbD (80 - 80) = false
      ∧ (fireMessage 7 (fireMask (blocked.valve 2).levels))[5 + (80 - 1) / 8]? = some 0x00 := by
  decide +kernel

/-! ### Valve channels -/

theorem witness_MessagesAreChecked :
    blocked.isReady = true ∧ readMessage (0x81#8 :: []) = none ∧ readMessage (0x82#8 :: [1, 2]) = none
      ∧ ([0x83#8].head? ≠ some 0x81#8 ∧ [0x83#8].head? ≠ some 0x82#8)
      ∧ State.reset.isReady = false ∧ State.reset.live :=
  ⟨rfl, by decide +kernel, by decide +kernel, by decide, rfl, reset_live⟩

def channelOf (up : Bool) (n : Nat) : State := withValve blocked 3 fun v =>
  { v with channel := { up := up, run := n, lastMessage := some 5, lastSend := some 5 } }

theorem witness_ValidMessagesProveTheChannel :
    (channelOf true 0).isReady = true
      ∧ readMessage (0x82#8 :: bytes2 (crc16 [0x82])) = some .idle
      ∧ ((channelOf true 0).valve 3).channel.up = true
      ∧ ((channelOf false 0).valve 3).channel.run = 0
      ∧ ¬ (∃ m, ((channelOf false 1).valve 3).channel.lastMessage = some m ∧ span m 2006 ≤ 2000)
      ∧ (∃ m, ((channelOf false 6).valve 3).channel.lastMessage = some m ∧ span m 2005 ≤ 2000)
      ∧ ((channelOf false 6).valve 3).channel.run < 7
      ∧ ((channelOf false 7).valve 3).channel.run = 7 := by
  refine ⟨rfl, by decide +kernel, rfl, rfl, ?_, ⟨5, rfl, by decide⟩, by decide, rfl⟩
  rintro ⟨m, h, hs⟩
  cases h
  exact absurd hs (by decide)
theorem witness_ChannelTimersAct :
    let s := channelOf true 0
    s.isReady = true ∧ (s.valve 3).channel.up = true ∧ (s.valve 3).channel.lastMessage = some 5
      ∧ (s.valve 3).channel.lastSend = some 5
      ∧ reached 2005 (after 5 2000) = true ∧ reached 2004 (after 5 2000) = false
      ∧ reached 505 (after 5 500) = true ∧ reached 504 (after 5 500) = false := by decide +kernel

/-! ### Pulse reports -/

/-- The stamp is 4,000 ticks old, and widths and gap stand at the ends of their windows. -/
theorem witness_ReportsAreClassified :
    readMessage (0x81#8 :: report 1 1 4 0 0 5000) = some (.report ⟨1, 1, 4, 0, 0, 5000⟩)
      ∧ classify image 0 9000 ⟨1, 1, 4, 0, 0, 5000⟩ = .noise
      ∧ classify image 0 9000 ⟨8, 1, 5, 0, 0, 5000⟩ = .ind
      ∧ classify image 0 9000 ⟨8, 2, 15, 20, 5, 5000⟩ = .pfi
      ∧ classify image 0 9000 ⟨8, 1, 40, 0, 0, 5000⟩ = .lft
      ∧ classify image 0 9000 ⟨9, 1, 5, 0, 0, 5000⟩ = .noise
      ∧ classify image 0 9001 ⟨8, 1, 5, 0, 0, 5000⟩ = .noise
      ∧ (31 : Nat) + 1 = Par.noiselim image := by decide +kernel

/-- Valve 10 with its first four levels DARK, FAULTED, RETIRED and SOUND, in phase `p`. -/
def strays (p : Phase) : State := withValve running 9 fun v => { v with
  monitor := { v.monitor with phase := p }
  levels := [{ state := .dark }, { state := .faulted }, { state := .retired }]
    ++ List.replicate 5 { state := .sound } }

/-- Reports of level 1 DARK, level 2 FAULTED and level 3 RETIRED that reach `exec`. -/
theorem witness_ReportsActOnTheirRecord :
    let v (j : Nat) : Level := ((((strays .blocking).atInstant 9000).superviseMessage 9).valve 9).level j
    (strays .blocking).unit = .ready image
      ∧ readMessage (0x81#8 :: report 1 1 5 0 0 5000) = some (.report ⟨1, 1, 5, 0, 0, 5000⟩)
      ∧ classify image 9 9000 ⟨1, 1, 5, 0, 0, 5000⟩ = ReportClass.ind.pulse
      ∧ classify image 9 9000 ⟨2, 2, 5, 20, 15, 5000⟩ = ReportClass.pfi.pulse
      ∧ classify image 9 9000 ⟨2, 1, 40, 0, 0, 5000⟩ = ReportClass.lft.pulse
      ∧ ((v 1).take .ind .interval 5000 0).standing = .stray
      ∧ ((v 2).take .pfi .interval 5000 0).standing = .protectiveOnly
      ∧ ((v 2).take .lft .interval 5000 0).standing = .fault ∧ (v 2).state = .faulted
      ∧ ((v 3).take .lft .interval 5000 0).standing = .stray ∧ (v 3).state ≠ .absent := by
  decide +kernel
/-- Both marks, and a PFI that newly sets its flag below PTv = 2. -/
theorem witness_ReportsActOnTheirRecord_marks :
    let s1 (p : Phase) := ((strays p).atInstant 9000).superviseMessage 9
    (s1 .conducting).marksConduction 9 ∧ ¬ (s1 .blocking).marksConduction 9
      ∧ ((s1 .blocking).valve 9).noProtective (Par.ptv 9 image) { state := .faulted } .pfi := by
  refine ⟨⟨by decide +kernel, .inl rfl⟩, fun h => absurd h.1 (by decide +kernel), fun _ => .inr (.inl ?_)⟩
  decide +kernel
/-- The states of the first half of ReportsActOnTheirRecord. -/
theorem witness_ReportsActOnTheirRecord_states :
    LevelState.unproven.counting = true ∧ LevelState.sound.counting = true
      ∧ LevelState.suspect.counting = true ∧ LevelState.dark.counting = false
      ∧ LevelState.faulted.counting = false ∧ LevelState.retired.counting = false := by decide
theorem witness_FaultReportFaultsTheLevel :
    blocked.unit = .ready image
      ∧ readMessage (0x81#8 :: report 1 1 40 0 0 5000) = some (.report ⟨1, 1, 40, 0, 0, 5000⟩)
      ∧ classify image 0 9000 ⟨1, 1, 40, 0, 0, 5000⟩ = .lft
      ∧ (((blocked.atInstant 9000).superviseMessage 0).valve 0).level 1 = { state := .sound } := by
  decide +kernel

/-- Valve 10 with `n` levels indicated, its first not, last fired at 8,000, in phase `p` and mode `m`. -/
def indicating (m : Mode) (p : Phase) (n : Nat) (expiry : Option Instant) : State :=
  withValve (inMode m) 9 fun v => { v with
    schedule := { fireAt := expiry.map fun _ => 900, expiry := expiry, deadline := some 80000 }
    monitor := { v.monitor with phase := p, indicated := n, lastFire := some 8000 }
    levels := List.replicate (8 - n) { state := .sound }
      ++ List.replicate n { state := .sound, indicated := true } }

/-- Valve `j` once the message arriving at `t` has proved its line. -/
def proved (s : State) (t : Instant) (j : Valve) : ValveRecord :=
  ((s.atInstant t).superviseMessage j).valve j

/-- What the statements on indications ask of the report at 9,000 and of its record: an IND, and a PFI
that is the first of PTv = 2. -/
theorem witness_IndicationIsCounted :
    let s := indicating .running .blocking 5 none
    let v := proved s 9000 9
    s.unit = .ready image
      ∧ readMessage (0x81#8 :: report 1 1 5 0 0 5000) = some (.report ⟨1, 1, 5, 0, 0, 5000⟩)
      ∧ readMessage (0x81#8 :: report 1 2 5 20 15 5000) = some (.report ⟨1, 2, 5, 20, 15, 5000⟩)
      ∧ classify image 9 9000 ⟨1, 1, 5, 0, 0, 5000⟩ = ReportClass.ind.pulse
      ∧ classify image 9 9000 ⟨1, 2, 5, 20, 15, 5000⟩ = ReportClass.pfi.pulse
      ∧ (v.level 1).state.counting = true ∧ (v.level 1).indicated = false
      ∧ (v.level 8).indicated = true ∧ v.monitor.phase ≠ .conducting
      ∧ v.monitor.distinctPfi + 1 < Par.ptv 9 image
      ∧ v.monitor.indicated + 1 ≠ Par.nv 9 image - Par.rv 9 image := by decide +kernel
theorem witness_IndicationIsCounted_marks :
    let s1 (p : Phase) := ((indicating .running p 5 none).atInstant 8999).superviseMessage 9
    ¬ (s1 .blocking).marksConduction 9 ∧ (s1 .conducting).marksConduction 9
      ∧ ((s1 .blocking).valve 9).noProtective (Par.ptv 9 image) { state := .sound } .pfi :=
  ⟨fun h => absurd h.1 (by decide +kernel), ⟨by decide +kernel, .inl rfl⟩,
    fun _ => .inr (.inl (by decide +kernel))⟩
/-- REFSP = 1,000: a CONDUCTING valve 999 ticks after its fire message. -/
theorem witness_IndicationIsCounted_conducting :
    let s := indicating .running .conducting 5 none
    (proved s 8999 9).monitor.phase = .conducting
      ∧ s.group.mode = .running ∧ classify image 9 8999 ⟨1, 1, 5, 0, 0, 5000⟩ = .ind
      ∧ ∃ f, (proved s 8999 9).monitor.lastFire = some f
          ∧ span f 8999 < Par.refsp image :=
  ⟨by decide +kernel, rfl, by decide +kernel, 8000, by decide +kernel, by decide +kernel⟩

/-- In BYPASS with the legs {1,4} and {3,6}: valve 10 is no leg, valve 7 is one; each with six of its
levels indicated. -/
def gatedAt (j : Valve) (p : Phase) : State := { indicating .bypass p 6 none with
  group := bypassing.group
  valves := Vector.replicate 12 soundValve |>.set j ((indicating .bypass p 6 none).valve 9) }

theorem witness_CompletedQuorumActs :
    let s := indicating .running .commutating 6 none
    let w := indicating .running .blocking 6 (some 9500)
    let v := proved s 9000 9
    (v.level 1).state.counting = true ∧ (v.level 1).indicated = false
      ∧ v.monitor.indicated + 1 = Par.nv 9 image - Par.rv 9 image
      ∧ v.monitor.phase = .commutating ∧ v.schedule.deadline = some 80000
      ∧ (proved w 9000 9).monitor.phase = .blocking ∧ (proved w 9000 9).schedule.expiry.isSome
      ∧ (proved (indicating .running .blocking 6 none) 9000 9).schedule.expiry = none := by
  decide +kernel
/-- The regimes of BYPASS: a valve outside the legs CONDUCTING, a leg valve COMMUTATING. -/
theorem witness_CompletedQuorumActs_regimes :
    ¬ (gatedAt 9 .conducting).outsideFreeRegime 9 ∧ (gatedAt 6 .commutating).outsideFreeRegime 6
      ∧ (proved (gatedAt 9 .conducting) 9000 9).monitor.indicated + 1 = 7
      ∧ (proved (gatedAt 6 .commutating) 9000 6).monitor.phase = .commutating := by
  refine ⟨?_, .inr ⟨_, rfl, by decide⟩, by decide +kernel, by decide +kernel⟩
  rintro (h | ⟨g, h, hj⟩)
  · cases h
  · cases h; exact absurd hj (by decide)
/-- What they do: back to BLOCKING with no Bj, and a block-back at the stamp. -/
theorem test_quorum_in_bypass :
    let u := run (.pulseReport 9000 9 (report 1 1 5 0 0 5000)) (gatedAt 9 .conducting)
    let w := run (.pulseReport 9000 6 (report 1 2 5 20 15 5000)) (gatedAt 6 .commutating)
    (u.valve 9).monitor.phase = .blocking ∧ (u.valve 9).monitor.blockBack = none
      ∧ (w.valve 6).monitor.phase = .blocking ∧ (w.valve 6).monitor.blockBack = some 5000
      ∧ (w.valve 6).monitor.distinctPfi = 1 := by decide +kernel
theorem witness_DroppedLevelRefiresTheValve :
    let s := indicating .running .conducting 0 none
    let v := proved s 9000 9
    classify image 9 9000 ⟨1, 1, 5, 0, 0, 5000⟩ = ReportClass.ind.pulse
      ∧ classify image 9 9000 ⟨1, 2, 5, 20, 15, 5000⟩ = ReportClass.pfi.pulse
      ∧ (v.level 1).state.counting = true
      ∧ ((s.atInstant 9000).superviseMessage 9).marksConduction 9
      ∧ ∀ f, v.monitor.lastFire = some f → Par.refsp image ≤ span f 9000 := by
  refine ⟨by decide +kernel, by decide +kernel, by decide +kernel, ⟨by decide +kernel, .inl rfl⟩,
    fun f h => ?_⟩
  have hf : (proved (indicating .running .conducting 0 none) 9000 9).monitor.lastFire = some 8000 := by
    decide +kernel
  cases h.symm.trans hf
  decide +kernel

/-- Valve 10 with one level flagged PFI of the PTv = 2. -/
def protecting (expiry : Option Instant) : State :=
  withValve (inMode .running) 9 fun v => { v with
    schedule := { fireAt := expiry.map fun _ => 900, expiry := expiry, deadline := some 80000 }
    monitor := { v.monitor with distinctPfi := 1 }
    levels := v.levels.set 3 { state := .sound, pfi := true } }

theorem witness_ProtectiveFiringActsInEveryMode :
    let r : PulseReport := ⟨1, 2, 5, 20, 15, 5000⟩
    let v := proved (protecting (some 9500)) 9000 9
    readMessage (0x81#8 :: report 1 2 5 20 15 5000) = some (.report r)
      ∧ classify image 9 9000 r = .pfi ∧ (v.level 1).state.counting = true
      ∧ (v.level 1).pfi = false ∧ Par.ptv 9 image ≤ v.monitor.distinctPfi + 1
      ∧ v.monitor.phase ≠ .conducting ∧ v.schedule.expiry.isSome
      ∧ (proved (protecting none) 9000 9).schedule.expiry = none := by
  decide +kernel

/-! ### Level Table, guard, modes -/

theorem witness_ClosingReviewsEveryLevel :
    blocked.unit = .ready image ∧ (blocked.valve 9).levels[7]? = some { state := .sound }
      ∧ Par.nv 9 image - Par.rv 9 image ≤ ((scheduled 7 .blocking none).valve 9).monitor.indicated
      ∧ blocked.counter ≤ 4294967295 := by decide +kernel
theorem witness_LevelChangeIsTalliedAndJudged :
    blocked.unit = .ready image ∧ LevelState.sound ≠ .dark := by decide +kernel
theorem witness_MeasurementAdjustsTheAdvance :
    blocked.unit = .ready image ∧ blocked.guard.advance ≤ Par.advmax image
      ∧ min 30000 (roundedQuotient ((80000 - 70556 : Instant).toNat * 36000) 200000) = 1700
      ∧ ¬ 1700 < Par.gmin image
      ∧ min 30000 (roundedQuotient ((80000 - 70562 : Instant).toNat * 36000) 200000)
          < Par.gmin image := by decide +kernel
/-- Each first failure; READINESS with the lowest of two valves. -/
theorem witness_DeblockChecksInOrder :
    blocked.fit ∧ State.reset.deblockFault = some .notReady
      ∧ { blocked with tracker := {} }.deblockFault = some .sync
      ∧ { blocked with group := { trips := { redundancy := true } } }.deblockFault = some .trip
      ∧ (withValve blocked 4 fun v => { v with channel := {} }).deblockFault = some .channel
      ∧ (withValve (withValve blocked 4 fun v => { v with
            monitor := { v.monitor with tally := { sound := 6, unproven := 2 } } }) 9 fun v => { v with
            monitor := { v.monitor with tally := { sound := 6, dark := 2 } } }).deblockFault
          = some (.readiness 4) :=
  ⟨⟨rfl, rfl, blocked_fits⟩, by decide +kernel, by decide +kernel, by decide +kernel,
    by decide +kernel, by decide +kernel⟩
theorem witness_RequestedModeIsJudged :
    State.reset.isReady = false ∧ blocked.isReady = true ∧ blocked.group.mode = .blocked
      ∧ bypassing.group.mode = .bypass ∧ blocked.fit ∧ bypassing.fit
      ∧ { blocked with tracker := {} }.deblockFault = some .sync :=
  ⟨rfl, rfl, rfl, rfl, ⟨rfl, rfl, blocked_fits⟩, ⟨rfl, rfl, blocked_fits⟩, by decide +kernel⟩
theorem witness_BypassFiresItsLegs :
    running.group.mode = .running ∧ (0 : Valve) ∈ [(0 : Valve), 6, 1, 7]
      ∧ (2 : Valve) ∉ [(0 : Valve), 6, 1, 7] := by decide +kernel
theorem witness_GatingFiresTheLegsAgain :
    bypassing.live ∧ bypassing.group.legs = some ⟨.leg14, .leg36⟩
      ∧ bypassing.group.gatingExpiry = some 1000 ∧ reached 1000 1000 = true
      ∧ bypassing.group.mode ≠ .running :=
  ⟨State.live_ready rfl, rfl, rfl, rfl, by decide⟩
/-- DEBLOCKING from BYPASS, and a leg valve whose count of indications, which no run reaches, lets its
closing exhaust it: the gating ends in BLOCKED. -/
theorem witness_GatingFiresTheLegsAgain_trip :
    let s := withValve { bypassing with
        group := { bypassing.group with mode := .deblocking, origin := some .fromBypass } } 0
      fun v => { v with
        monitor := { v.monitor with
          tally := { sound := 7, dark := 1 }, margin := .atLimit, indicated := 8 }
        levels := [{ state := .dark, miss := 6 }, { state := .sound, miss := 5 }]
          ++ List.replicate 6 { state := .sound, indicated := true } }
    let u := run (.bypassGating 1000) s
    s.group.trips.redundancy = false ∧ u.group.trips = s.group.trips.add .redundancy
      ∧ u.group.mode = .blocked ∧ u.group.refusal = some .trip := by decide +kernel
theorem witness_TripCauseLatchesAndActs :
    running.group.trips.has .channel = false ∧ running.par Par.byptrip = 1
      ∧ ¬ (TripCause.channel = .syncLost ∧ running.group.mode = .blocked)
      ∧ { State.reset with group := { mode := .running } }.par Par.byptrip ≠ 1
      ∧ deblocking.group.mode = .deblocking
      ∧ (TripSet.add {} .channel).has .channel = true := by decide +kernel
/-- A BLOCK on link B behind the frame that takes SEL there, link A being silent, and without it. -/
theorem witness_TripCauseLatchesAndActs_block :
    let block : Instr := .orderFrame 0 .b (order .active false 0 0)
    let s (silent : Bool) : State := { losing [.linkSilence 0 .b, block] with
      linkA := { lastValid := some 0, role := .active, silent := silent } }
    (s true).blockFollows = true ∧ (s false).blockFollows = false
      ∧ (s true).group.trips.has .syncLost = false ∧ (s true).isReady = true
      ∧ (s true).group.mode ≠ .blocked ∧ tickOf block = some (s true).timebase
      ∧ ∃ u, exec block (s true) = .next u :=
  ⟨by decide +kernel, by decide +kernel, rfl, rfl, by decide, rfl, _, rfl⟩
theorem witness_ClearTripJudgesEachCause :
    running.group.mode ≠ .blocked ∧ blocked.group.mode = .blocked := by decide
/-- TNOACT = 100: the limit is 100,000 ticks. -/
theorem witness_ControlLossIsHandedOnce :
    let s := { running with lastTaken := some 7 }
    s.unit = .ready image ∧ s.lastTaken = some 7 ∧ s.limitPassed = false
      ∧ reached 100007 (after 7 (Par.tnoact image * 1000)) = true
      ∧ ¬ (reached 100006 (after 7 (Par.tnoact image * 1000)) = true ∧ s.limitPassed = false)
      ∧ blocked.group.mode = .blocked ∧ running.group.mode ≠ .blocked := by decide +kernel

/-! ### Links and service requests -/

theorem witness_FramesAreChecked :
    blocked.live
      ∧ checkFrame blocked.gaddr (orderBytes { order .active false 1 9000 with crc := 0 }) = .error
      ∧ checkFrame blocked.gaddr (orderBytes (order .active false 3 9000)) = .error
      ∧ checkFrame blocked.gaddr (withCrc [0x18, 0x80, 0, 0]) = .foreign
      ∧ checkFrame blocked.gaddr (orderBytes (order .active false 2 9000)) = .valid :=
  ⟨blocked_live, by decide +kernel, by decide +kernel, by decide +kernel, by decide +kernel⟩
theorem witness_ValidFrameActsOnLinkAndSelection :
    blocked.sel = .a ∧ (blocked.link .a).role = .active ∧ (blocked.link .a).silent = false
      ∧ (State.reset.link .a).role = .standby ∧ Link.b ≠ State.reset.sel := by decide +kernel
theorem witness_ValidOrderIsTakenOnTheSelectedLink :
    let f := order .active true 1 14000
    blocked.live ∧ orderIntact f ∧ blocked.addressed f.address ∧ f.mode ≠ 3 ∧ f.role = .active
      ∧ (blocked.heard 9 .a .active).sel = .a ∧ (blocked.heard 9 .b .active).sel ≠ .b := by
  have ho : orderIntact (order .active true 1 14000) := by unfold orderIntact; decide +kernel
  exact ⟨blocked_live, ho, blocked_addressed, by decide +kernel, rfl, by decide +kernel,
    by decide +kernel⟩

/-- Link A with a reply on the line and `n` waiting, a TRIP word pending. -/
def replying (n : Nat) : State := (({ blocked with linkA := { blocked.linkA with
    onLine := some (.service ⟨5, 10, .none, .ok, 0, []⟩)
    waiting := List.replicate n (.service ⟨5, 10, .none, .ok, 0, []⟩) } }).post .trip
  (TripCause.bit .channel)).post (.valve 3) valveSlip

theorem witness_RepliesQueueInOrder :
    2 ≤ ((replying 2).link .a).waiting.length ∧ ((replying 1).link .a).waiting.length < 2
      ∧ ((replying 1).link .a).onLine.isSome ∧ (blocked.link .a).onLine = none
      ∧ ((replying 1).link .a).pendingWord .trip ≠ 0 ∧ blocked.live
      ∧ (∀ src', src'.code < Source.trip.code → ((replying 1).link .a).pendingWord src' = 0) := by
  refine ⟨by decide, by decide, by decide, by decide, by decide +kernel, blocked_live, fun src h => ?_⟩
  exact absurd h (by simp [Source.code])
theorem witness_StatusFrameIsLaidOut :
    blocked.unit = .ready image ∧ State.reset.isReady = false
      ∧ { blocked with group := { refusal := some (.readiness 11) } }.group.refusal
          = some (.readiness 11)
      ∧ (∀ j, blocked.group.refusal ≠ some (.readiness j))
      ∧ (blocked.statusFrame .a 5).attention = none
      ∧ ((replying 1).statusFrame .a 5).attention = some (.trip, TripCause.bit .channel) := by
  decide +kernel
/-- TSIL = 40 in READY, and 40,000 ticks outside it. -/
theorem witness_SilenceLimitSilencesTheLink :
    blocked.live ∧ (blocked.link .a).overdue 40000 (Par.tsil image * 1000) = true
      ∧ (blocked.link .a).overdue 39999 (Par.tsil image * 1000) = false
      ∧ (blocked.link .b).overdue 40000 (Par.tsil image * 1000) = false :=
  ⟨blocked_live, by decide +kernel, by decide +kernel, by decide +kernel⟩

theorem witness_LookUpsAnswerFromTheState :
    blocked.live ∧ blocked.addressed (head .standby (.lookUpLevel 12 8)).address
      ∧ serviceIntact (head .standby (.lookUpLevel 12 8)) (.lookUpLevel 12 8)
      ∧ serviceIntact (head .standby (.lookUpValve 13)) (.lookUpValve 13)
      ∧ serviceIntact (head .standby (.configRead 56 8)) (.configRead 56 8)
      ∧ ((blocked.valve 11).level 8).state ≠ .absent ∧ ((blocked.valve 11).level 80).state = .absent
      ∧ (12 : Byte).toNat = (11 : Valve).val + 1 ∧ (∀ v : Valve, (13 : Byte).toNat ≠ v.val + 1)
      ∧ (56 : Byte).toNat + (8 : Byte).toNat ≤ 64 ∧ 64 < (57 : Byte).toNat + (8 : Byte).toNat := by
  refine ⟨blocked_live, blocked_addressed, ?_⟩
  unfold serviceIntact
  decide +kernel
theorem witness_SeekAndWalkMoveTheCursor :
    serviceIntact (head .standby (.seek 1 80)) (.seek 1 80)
      ∧ serviceIntact (head .standby (.seek 0 81)) (.seek 0 81)
      ∧ serviceIntact (head .standby (.walk 41)) (.walk 41) ∧ State.reset.isReady = false
      ∧ blocked.isReady = true ∧ (blocked.link .a).cursor.position = 1
      ∧ (1 : Byte).toNat = (0 : Valve).val + 1 ∧ (80 : Byte).toNat ≤ 80
      ∧ (∀ v : Valve, (0 : Byte).toNat ≠ v.val + 1) := by
  unfold serviceIntact
  decide +kernel
theorem witness_ChangingRequestsAreChecked :
    serviceIntact (head .standby .configApply) .configApply
      ∧ Request.changing .configApply = true ∧ (head .standby .configApply).role = .standby
      ∧ serviceIntact (head .active (.retire 1 9)) (.retire 1 9)
      ∧ (head .active (.retire 1 9)).role = .active ∧ (blocked.heard 9 .a .active).sel = .a
      ∧ (State.reset.heard 9 .a .active).sel = .a
      ∧ ((blocked.valve 0).level 9).state = .absent := by
  unfold serviceIntact
  decide +kernel
theorem witness_RetireTakesTheLevelOut :
    worn.unit = .ready image ∧ worn.addressed (head .active (.retire 3 2)).address
      ∧ serviceIntact (head .active (.retire 3 2)) (.retire 3 2)
      ∧ (worn.heard 9 .a .active).sel = .a ∧ (3 : Byte).toNat = (2 : Valve).val + 1
      ∧ ((worn.valve 2).level 2).state ≠ .absent := by
  refine ⟨rfl, blocked_addressed, ?_⟩
  unfold serviceIntact
  decide +kernel
/-- RUNNING with valve 3 AT_LIMIT. -/
theorem witness_RetireTakesTheLevelOut_exhausts :
    let s := withValve running 2 fun v => { v with
      monitor := { v.monitor with tally := { sound := 7, dark := 1 }, margin := .atLimit }
      levels := v.levels.set 0 { state := .dark } }
    s.group.mode ≠ .blocked ∧ ((s.valve 2).level 2).state.counting = true
      ∧ (s.valve 2).failed = Par.rv 2 image ∧ (s.heard 9 .a .active).sel = .a := by decide +kernel
theorem witness_RestoreAndClearCountsAct :
    worn.unit = .ready image ∧ worn.addressed (head .active (.restore 3 6)).address
      ∧ (worn.heard 9 .a .active).sel = .a
      ∧ serviceIntact (head .active (.restore 3 6)) (.restore 3 6)
      ∧ serviceIntact (head .active (.clearCounts 3 2)) (.clearCounts 3 2)
      ∧ worn.group.mode = .blocked ∧ ((worn.valve 2).level 6).state = .dark
      ∧ ((worn.valve 2).level 1).state = .sound := by
  refine ⟨rfl, blocked_addressed, ?_⟩
  unfold serviceIntact
  decide +kernel
theorem witness_ConfigurationIsWrittenAndApplied :
    let data : Vector Word16 8 := Vector.replicate 8 7
    State.reset.unit = .loading 0 ∧ (State.reset.heard 9 .a .active).sel = .a
      ∧ serviceIntact (head .active (.configWrite 63 1 data)) (.configWrite 63 1 data)
      ∧ (63 : Byte).toNat + (1 : Byte).toNat ≤ 64 ∧ ¬ (63 : Byte).toNat + (2 : Byte).toNat ≤ 64
      ∧ serviceIntact (head .active .configApply) .configApply ∧ blocked.store = none
      ∧ imageValid blocked.staging = true ∧ imageValid State.reset.staging = false
      ∧ running.group.mode ≠ .blocked := by
  unfold serviceIntact
  decide +kernel
theorem witness_StoresAndServiceResetsRun :
    let s := { blocked with store := some ⟨7, image⟩ }
    serviceIntact (head .active .configStore) .configStore
      ∧ serviceIntact (head .active .reset) .reset
      ∧ s.store.isSome ∧ blocked.store = none ∧ blocked.unit = .ready image
      ∧ (blocked.heard 9 .a .active).sel = .a ∧ blocked.group.mode = .blocked
      ∧ running.group.mode ≠ .blocked ∧ State.reset.isReady = false
      ∧ span 7 1000007 ≤ 1000000 ∧ reached 1000007 (after 7 1000000) = true := by
  unfold serviceIntact
  decide +kernel

/-! ### Invariants: a state in READY that has them, and a step from it -/

/-- The next command is the IDLE of channel 1. -/
def waiting : State := { blocked with pending := [.vc12Idle 600 0] }

theorem waiting_steps : ∃ u, step waiting = .next u ∧ u.sent = [.channel 0 (idleMessage 600)] :=
  ⟨_, rfl, by decide +kernel⟩
theorem witness_StepsKeepTheUnitConsistent : waiting.UnitInv where
  valid im h := by cases h; exact image_valid
  tracker h := by cases h
  counter h := by cases h
  valves h := by cases h
  guard h := by cases h
  group h := by cases h
  store _ h := by cases h
theorem witness_StepsKeepTheTrackerInRange : waiting.TrackerInv where
  period im h := by cases h; decide +kernel
  goodRun := by decide
  relockRun := by decide
  holdover im h := by cases h; decide +kernel
  holding im h := by cases h; decide +kernel
  noDeadline h := by cases h
  deadline _ := ⟨0, rfl, rfl⟩
theorem witness_StepsKeepModesAndSchedules : waiting.ModeInv where
  origin := by decide +kernel
  legs := by decide +kernel
  gating := by decide +kernel
  uppers := by decide +kernel
  zeros := by decide +kernel
  expiry := by decide +kernel
  fireAt := by decide +kernel
  cancelled := by decide +kernel
theorem witness_StepsKeepGuardAndLinesInRange : waiting.GuardInv ∧ waiting.LineInv := by
  refine ⟨⟨fun im h => ?_, by decide, fun n h => ?_, fun n h => ?_, fun j n h => ?_, ?_, fun im h j => ?_⟩,
    ⟨?_, ?_, ?_, ?_, ?_, ?_, ?_, ?_, ?_⟩⟩
  · cases h; decide +kernel
  · cases h
  · cases h
  · have hj : ∀ j, (waiting.valve j).lastGamma = none := by decide +kernel
    simp [hj] at h
  · decide +kernel
  · left; revert j; decide +kernel
  all_goals first
    | decide +kernel
    | (intro l; cases l <;> decide +kernel)
theorem witness_StepsKeepTheLevelTable : waiting.LevelInv ∧ waiting.StampInv := by
  have hv : ∀ j, waiting.valve j = soundValve := by
    intro j; revert j; decide +kernel
  refine ⟨⟨by decide, fun im h j => ?_⟩, ⟨fun j p => ?_, by decide, fun i j p q _ h => ?_⟩⟩
  · cases h
    rw [hv]
    refine ⟨?_, ?_, by decide, by decide, by decide, by decide, by decide, by decide, ?_, by decide,
      by decide⟩
    · revert j; decide +kernel
    · intro l hl
      obtain rfl : l = { state := .sound } := List.eq_of_mem_replicate hl
      exact ⟨by decide, by decide, by decide, by decide, by decide, by decide, by decide⟩
    · revert j; decide +kernel
  all_goals
    have hs : ∀ n, (soundValve.level n).stamp = 0 := by
      intro n
      simp only [ValveRecord.level, soundValve, List.getD_eq_getElem?_getD,
        List.getElem?_replicate]
      split
      · rfl
      · split <;> rfl
  · rw [hv, hs]; exact Nat.zero_le _
  · rw [hv, hs] at h; exact absurd rfl h
/-- DEBLOCKING with a good crossing confirmed next, and BLOCKED with an order to RUN next. -/
theorem witness_OnlyAFitGroupRuns :
    let s := { deblocking with
      tracker := { blocked.tracker with detector := .confirming 200000 }
      pending := [.crossingConfirmed 202000] }
    let s' := { blocked with pending := [.orderFrame 9 .a (order .active false 1 14000)] }
    (∃ u, step s = .next u ∧ u.group.mode = .running) ∧ s.group.mode ≠ .running
      ∧ (∃ u, step s' = .next u ∧ u.group.mode = .deblocking) ∧ s'.group.mode ≠ .deblocking := by
  refine ⟨⟨_, rfl, ?_⟩, by decide, ⟨_, rfl, ?_⟩, by decide⟩ <;> decide +kernel

end Sys2Proof.Tests
end

section
/-! PROOF. The period filter and the rounded quotient (R5; 00_scope.md, Rounded quotient). -/

namespace Sys2Proof.Machine

open Sys2Proof

/-! ## Arithmetic -/

/-- A quotient and the next number bound the dividend. -/
theorem roundedQuotient_bounds {y : Nat} (x : Nat) (hy : 0 < y) :
    roundedQuotient x y * y ≤ x + y / 2 ∧ x + y / 2 < (roundedQuotient x y + 1) * y :=
  ⟨Nat.div_mul_le_self _ _, (Nat.div_lt_iff_lt_mul hy).1 (Nat.lt_succ_self _)⟩

/-- An interval at or above the estimate raises it by (D + 4) / 8. -/
theorem periodFilter_of_le {p m : Nat} (h : p ≤ m) : periodFilter p m = p + (m - p + 4) / 8 :=
  if_pos h

/-- An interval below the estimate lowers it by (4 − D) / 8. -/
theorem periodFilter_of_lt {p m : Nat} (h : m < p) : periodFilter p m = p - (p - m + 4) / 8 :=
  if_neg (by omega)

theorem min_le_periodFilter (p m : Nat) : min p m ≤ periodFilter p m := by
  rcases Nat.lt_or_ge m p with h | h
  · rw [periodFilter_of_lt h]; omega
  · rw [periodFilter_of_le h]; omega

theorem periodFilter_le_max (p m : Nat) : periodFilter p m ≤ max p m := by
  rcases Nat.lt_or_ge m p with h | h
  · rw [periodFilter_of_lt h]; omega
  · rw [periodFilter_of_le h]; omega

/-- Settles O9, by the two branches of the filter. -/
theorem periodFilterRoundsAwayFromZero : Obligations.PeriodFilterRoundsAwayFromZero := by
  refine ⟨fun x y hy => roundedQuotient_bounds x hy, fun p m => ?_⟩
  have bounds := And.intro (min_le_periodFilter p m) (periodFilter_le_max p m)
  rcases Nat.lt_or_ge m p with h | h
  · rw [periodFilter_of_lt h] at bounds ⊢
    refine ⟨?_, ?_, ?_, bounds⟩ <;> omega
  · rw [periodFilter_of_le h] at bounds ⊢
    refine ⟨?_, ?_, ?_, bounds⟩ <;> omega

end Sys2Proof.Machine
end

section
/-! PROOF. Resets: every block at its values, what holds the part and what ends a reset
(R164, R167); the state after a reset meets every invariant. -/

namespace Sys2Proof.Machine

open Sys2Proof

/-! ## Resets -/

theorem State.holdInReset_eq (s : State) (c : StartCause) (b : HeldBy) :
    s.holdInReset c b = blankState s (.held { cause := c, heldBy := b }) s.startCause := rfl

theorem State.heldBy_live {s : State} (h : s.live) : s.heldBy = none := by
  unfold State.heldBy
  split
  · exact absurd (by assumption) (h _)
  · rfl

theorem State.heldBy_held {s : State} {h : Hold} (hs : s.unit = .held h) :
    s.heldBy = some h.heldBy := by simp [State.heldBy, hs]

theorem HeldBy.addPowerOn_some (b : HeldBy) :
    HeldBy.addPowerOn (some b) = if b = .powerOn then .powerOn else .both := by
  cases b <;> rfl

theorem HeldBy.addPin_some (b : HeldBy) :
    HeldBy.addPin (some b) = if b = .pin then .pin else .both := by
  cases b <;> rfl

/-- An end of reset is nothing to a part that is not held. -/
theorem execResetEnd_live {s : State} (h : s.live) (e : ResetEnd) :
    execResetEnd s e = .next s := by
  unfold execResetEnd
  split
  · exact absurd (by assumption) (h _)
  · rfl

theorem execResetEnd_none {s : State} {h : Hold} (hs : s.unit = .held h) {e : ResetEnd}
    (he : h.heldBy.after e = none) : execResetEnd s e = .next (s.beginLoading h.cause) := by
  simp [execResetEnd, hs, he]

theorem execResetEnd_some {s : State} {h : Hold} (hs : s.unit = .held h) {e : ResetEnd}
    {b : HeldBy} (he : h.heldBy.after e = some b) :
    execResetEnd s e = .next { s with unit := .held { h with heldBy := b } } := by
  simp [execResetEnd, hs, he]

theorem execResetEnd_same {s : State} {h : Hold} (hs : s.unit = .held h) {e : ResetEnd}
    (he : h.heldBy.after e = some h.heldBy) : execResetEnd s e = .next s := by
  rw [execResetEnd_some hs he, ← hs]

/-- Settles O3, by what holds the part before the command. -/
theorem resetsGiveEveryBlockItsValues : Obligations.ResetsGiveEveryBlockItsValues := by
  intro s blank
  have power : exec .powerOnReset s = blank .power (.addPowerOn s.heldBy) :=
    congrArg Host.Outcome.next (s.holdInReset_eq ..)
  have pin : exec .resetPin s = blank .pin (.addPin s.heldBy) :=
    congrArg Host.Outcome.next (s.holdInReset_eq ..)
  refine ⟨fun hl => ?_, fun h hs => ?_⟩
  · rw [power, pin, State.heldBy_live hl]
    exact ⟨rfl, rfl, execResetEnd_live hl⟩
  · intro stillHeld loading
    rw [power, pin, State.heldBy_held hs, HeldBy.addPowerOn_some, HeldBy.addPin_some]
    refine ⟨rfl, rfl, fun hb => ⟨?_, ?_⟩, fun hb => ⟨?_, ?_⟩, fun hb => ⟨?_, ?_⟩⟩
    · exact execResetEnd_none hs (by rw [hb]; rfl)
    · exact execResetEnd_same hs (by rw [hb]; rfl)
    · exact execResetEnd_none hs (by rw [hb]; rfl)
    · exact execResetEnd_same hs (by rw [hb]; rfl)
    · exact execResetEnd_some hs (by rw [hb]; rfl)
    · exact execResetEnd_some hs (by rw [hb]; rfl)

/-! ## The state after a reset -/

@[simp] theorem State.reset_valve (j : Valve) : State.reset.valve j = {} := by
  simp [State.valve, State.reset]

@[simp] theorem State.reset_link (l : Link) : State.reset.link l = {} := by cases l <;> rfl

theorem State.reset_stamp (j : Valve) (p : Nat) : ((State.reset.valve j).level p).stamp = 0 := by
  simp [ValveRecord.level]

theorem State.reset_not_ready (im : Image) : State.reset.unit ≠ .ready im := nofun

theorem State.reset_unitInv : State.reset.UnitInv where
  valid im h := absurd h (State.reset_not_ready im)
  tracker _ := rfl
  counter _ := rfl
  valves _ := rfl
  guard _ := rfl
  group _ := rfl
  store _ h := nomatch h

theorem State.reset_trackerInv : State.reset.TrackerInv where
  period im h := absurd h (State.reset_not_ready im)
  goodRun := Nat.zero_le _
  relockRun := Nat.zero_le _
  holdover im h := absurd h (State.reset_not_ready im)
  holding im h := absurd h (State.reset_not_ready im)
  noDeadline _ := rfl
  deadline h := absurd rfl h

theorem State.reset_modeInv : State.reset.ModeInv where
  origin := by decide
  legs := by decide
  gating := by decide
  uppers _ := ⟨rfl, rfl⟩
  zeros j := by simp
  expiry j := by simp
  fireAt j := by simp
  cancelled _ j := by simp

theorem State.reset_guardInv : State.reset.GuardInv where
  advance im h := absurd h (State.reset_not_ready im)
  failCycles := Nat.zero_le _
  lowest _ h := nomatch h
  reportedLow _ h := nomatch h
  lastGamma j := by simp [gammaInRange]
  commFailures j := by simp
  alphaEff im h := absurd h (State.reset_not_ready im)

theorem State.reset_lineInv : State.reset.LineInv where
  waiting l := by simp
  onLine l := by simp
  heard l := by simp
  errors l := by simp
  foreign l := by simp
  cursor l := by simp
  up j := by simp
  run j := by simp
  counts j := by simp

theorem State.reset_levelInv : State.reset.LevelInv where
  counter := Nat.zero_le _
  valves im h := absurd h (State.reset_not_ready im)

theorem State.reset_stampInv : State.reset.StampInv where
  bound j p := (State.reset_stamp j p).le
  limit := Nat.zero_le _
  distinct i _ p _ _ h := absurd (State.reset_stamp i p) h

/-- Settles O54. -/
theorem resetStateIsSafe : Obligations.ResetStateIsSafe :=
  ⟨rfl, rfl, rfl, rfl, State.reset_unitInv, State.reset_trackerInv, State.reset_modeInv,
    State.reset_guardInv, State.reset_lineInv, State.reset_levelInv, State.reset_stampInv⟩

end Sys2Proof.Machine
end

section
/-! PROOF. The crossing detector (R2, R3) and the sync machine, one equation per row of the Sync
states (R4, R6, R10 to R13). -/

namespace Sys2Proof.Machine

open Sys2Proof

/-! ## The crossing detector -/

/-- In READY an edge of the reference input acts on the detector. -/
theorem State.inputMoves_ready {s : State} {im : Image} (h : s.unit = .ready im) (t : Instant)
    (high : Bool) (act : Image → State → State) :
    s.inputMoves t high act = .next (act im (s.atInstant t)) := by
  unfold State.inputMoves
  rw [h]
  exact State.atTick_live (State.live_ready h) t _

theorem State.breakLowRun_within {s : State} {im : Image} {t tl : Instant}
    (hd : s.tracker.detector = .disarmed (some tl)) (h : span tl t ≤ Par.tconf im) :
    s.breakLowRun im t = s.setDetector (.disarmed none) true := by
  simp [State.breakLowRun, hd, h]

/-- Settles O6, by what each row of the input finds in READY. -/
theorem detectorFollowsTheInput : Obligations.DetectorFollowsTheInput := by
  intro s t im hu result
  have sets : ∀ d high, Host.Outcome.next ((s.atInstant t).setDetector d high) = result high d :=
    fun _ _ => rfl
  refine ⟨fun hd => ?_, fun t0 hd h1 h2 => ?_, fun hd => ⟨?_, ?_⟩, fun tl hd h => ⟨?_, ?_⟩,
    fun tl hd h => ?_⟩
  · rw [← sets, exec, execCrossingCandidate, State.inputMoves_ready hu]
    simp [hd]
  · rw [← sets, exec, execCandidateDropped, State.inputMoves_ready hu]
    simp [hd, inRange, h1, h2]
  · rw [← sets, exec, execLowRunStart, State.inputMoves_ready hu, State.startLowRun_eq]
    simp [hd]
  · rw [← sets, exec, execCandidateDropped, State.inputMoves_ready hu]
    simp [hd, State.startLowRun_eq]
  · rw [← sets, exec, execLowRunBroken, State.inputMoves_ready hu,
      State.breakLowRun_within (s := s.atInstant t) hd h]
  · rw [← sets, exec, execCrossingCandidate, State.inputMoves_ready hu]
    simp [hd, State.breakLowRun_within (s := s.atInstant t) hd h]
  · rw [← sets, exec, execDetectorRearm, State.atTick_live (State.live_ready hu),
      State.working_ready (s := s.atInstant t) hu]
    simp [hd, h]

/-! ## The sync machine -/

theorem inWindow_iff {pnom m : Nat} :
    inWindow pnom m = true ↔ m ≤ pnom + pnom / 12 ∧ pnom ≤ m + pnom / 12 := by
  simp [inWindow]

theorem Tracker.interval_eq {tr : Tracker} {r : Instant} (h : tr.tref = some r) (t0 : Instant) :
    tr.interval t0 = some (span r t0) := by simp [Tracker.interval, h]

/-- The crossing `t0` lies outside the accept window, or there is no reference to measure from. -/
def Tracker.misses (tr : Tracker) (im : Image) (t0 : Instant) : Prop :=
  ∀ r, tr.tref = some r → inWindow (Par.pnom im) (span r t0) = false

section
variable {s : State} {im : Image} {t0 r : Instant}

theorem State.judgeCrossing_locked (hr : s.tracker.tref = some r)
    (hw : inWindow (Par.pnom im) (span r t0) = true) (hs : s.tracker.sync = .locked) :
    s.judgeCrossing im t0 = s.referAt im t0 (periodFilter s.tracker.period (span r t0)) id := by
  simp [State.judgeCrossing, Tracker.interval_eq hr, hw, hs]

theorem State.judgeCrossing_firstRelock (hr : s.tracker.tref = some r)
    (hw : inWindow (Par.pnom im) (span r t0) = true) (hs : s.tracker.sync = .holdover)
    (hk : s.tracker.relockRun = 0) :
    s.judgeCrossing im t0 = s.referAt im t0 (periodFilter s.tracker.period (span r t0))
      fun tr => { tr with relockRun := tr.relockRun + 1 } := by
  simp [State.judgeCrossing, Tracker.interval_eq hr, hw, hs, hk]

theorem State.judgeCrossing_relock (hr : s.tracker.tref = some r)
    (hw : inWindow (Par.pnom im) (span r t0) = true) (hs : s.tracker.sync = .holdover)
    (hk : 1 ≤ s.tracker.relockRun) :
    s.judgeCrossing im t0 = s.lockAt im t0 (periodFilter s.tracker.period (span r t0)) := by
  simp [State.judgeCrossing, Tracker.interval_eq hr, hw, hs, hk]

theorem State.judgeCrossing_goodRun (hr : s.tracker.tref = some r)
    (hw : inWindow (Par.pnom im) (span r t0) = true)
    (hs : s.tracker.sync = .seeking ∨ s.tracker.sync = .lost) (hk : s.tracker.goodRun < 3) :
    s.judgeCrossing im t0 = s.referAt im t0 (periodFilter s.tracker.period (span r t0))
      fun tr => { tr with goodRun := tr.goodRun + 1 } := by
  have h4 : ¬ 4 ≤ s.tracker.goodRun + 1 := by omega
  rcases hs with hs | hs <;> simp [State.judgeCrossing, Tracker.interval_eq hr, hw, hs, h4]

theorem State.judgeCrossing_lock (hr : s.tracker.tref = some r)
    (hw : inWindow (Par.pnom im) (span r t0) = true)
    (hs : s.tracker.sync = .seeking ∨ s.tracker.sync = .lost) (hk : 3 ≤ s.tracker.goodRun) :
    s.judgeCrossing im t0 = s.lockAt im t0 (periodFilter s.tracker.period (span r t0)) := by
  rcases hs with hs | hs <;> simp [State.judgeCrossing, Tracker.interval_eq hr, hw, hs, hk]

theorem State.judgeCrossing_discard (hm : s.tracker.misses im t0)
    (hs : s.tracker.sync = .locked ∨ s.tracker.sync = .holdover) :
    s.judgeCrossing im t0 = s.discardCrossing := by
  unfold State.judgeCrossing
  rcases hr : s.tracker.tref with _ | r
  · rcases hs with hs | hs <;> simp [Tracker.interval, hr, hs]
  · rcases hs with hs | hs <;> simp [Tracker.interval, hr, hs, hm r hr]

theorem State.judgeCrossing_restart (hm : s.tracker.misses im t0)
    (hs : s.tracker.sync = .seeking ∨ s.tracker.sync = .lost) :
    s.judgeCrossing im t0
      = s.referAt im t0 s.tracker.period fun tr => { tr with goodRun := 0 } := by
  unfold State.judgeCrossing
  rcases hr : s.tracker.tref with _ | r
  · rcases hs with hs | hs <;> simp [Tracker.interval, hr, hs]
  · rcases hs with hs | hs <;> simp [Tracker.interval, hr, hs, hm r hr]

end

/-- CROSSING_CONFIRMED in READY, once the candidate has been high for TCONF ticks. -/
theorem exec_crossingConfirmed {s : State} {t t0 : Instant} {im : Image}
    (hu : s.unit = .ready im) (hd : s.tracker.detector = .confirming t0)
    (hr : reached t (after t0 (Par.tconf im)) = true) :
    exec (.crossingConfirmed t) s
      = .next (((s.atInstant t).setDetector (.disarmed none) true).judgeCrossing im t0) := by
  rw [exec, execCrossingConfirmed, State.atTick_live (State.live_ready hu),
    State.working_ready (s := s.atInstant t) hu]
  simp [hd, hr]

/-- DEADLINE_REACHED in READY outside SEEKING, once the deadline is reached. -/
theorem exec_deadlineReached {s : State} {t r d : Instant} {im : Image}
    (hu : s.unit = .ready im) (hr : s.tracker.tref = some r) (hd : s.tracker.deadline = some d)
    (ht : reached t d = true) (hs : s.tracker.sync ≠ .seeking) :
    exec (.deadlineReached t) s
      = .next (((s.atInstant t).synthetic im (after r s.tracker.period)).handReference im
          (after r s.tracker.period)) := by
  rw [exec, execDeadlineReached, State.atTick_live (State.live_ready hu),
    State.working_ready (s := s.atInstant t) hu]
  simp [hr, hd, ht, hs]

section
variable {s : State} {im : Image} {z : Instant}

theorem State.synthetic_locked (h : s.tracker.sync = .locked) :
    s.synthetic im z = ({ s with tracker := { s.tracker.refer z .holdover s.tracker.period with
      holdover := 1, relockRun := 0 } }).post .sync syncHoldover := by
  simp [State.synthetic, h]

theorem State.synthetic_held (h : s.tracker.sync = .holdover)
    (hn : min 16 (s.tracker.holdover + 1) ≤ Par.holdmax im) :
    s.synthetic im z = { s with tracker := { s.tracker.refer z .holdover s.tracker.period with
      holdover := min 16 (s.tracker.holdover + 1), relockRun := 0 } } := by
  simp only [State.synthetic, h]
  rw [if_neg (by omega)]

theorem State.synthetic_loses (h : s.tracker.sync = .holdover)
    (hn : Par.holdmax im < min 16 (s.tracker.holdover + 1)) :
    s.synthetic im z = (({ s with tracker := { s.tracker.refer z .lost s.tracker.period with
      holdover := min 16 (s.tracker.holdover + 1), relockRun := 0, goodRun := 0 } }).post .sync
        syncLost).hand .syncLost := by
  simp only [State.synthetic, h]
  rw [if_pos hn]

theorem State.synthetic_lost (h : s.tracker.sync = .lost) :
    s.synthetic im z = { s with tracker := { s.tracker.refer z .lost s.tracker.period with
      goodRun := 0 } } := by
  simp [State.synthetic, h]

end

/-- Settles O7, row by row of the Sync states. -/
theorem confirmedCrossingIsJudged : Obligations.ConfirmedCrossingIsJudged := by
  intro s t t0 im hu hd hr tr result p
  rw [exec_crossingConfirmed hu hd hr]
  set w := (s.atInstant t).setDetector (.disarmed none) true
  refine ⟨fun r href hhi hlo => ?_, fun hout => ?_⟩
  · intro p' d locked
    have hin := inWindow_iff.2 ⟨hhi, hlo⟩
    have refers (f : Tracker → Tracker) (hs : s.tracker.sync ≠ .seeking) :
        w.referAt im t0 p' f = (result { f tr with
          sync := s.tracker.sync, tref := some t0, period := p', deadline := d }).handReference
            im t0 := by
      unfold State.referAt Tracker.refer
      rw [if_neg (show w.tracker.sync ≠ .seeking from hs)]
      rfl
    refine ⟨fun hs => ?_, fun hs hk => ?_, fun hs hk => ?_, fun hs hk => ?_, fun hs hk => ?_⟩ <;>
      refine congrArg _ ?_
    · exact (State.judgeCrossing_locked (s := w) href hin hs).trans (refers _ (by simp [hs]))
    · refine (State.judgeCrossing_firstRelock (s := w) href hin hs hk).trans
        ((refers _ (by simp [hs])).trans ?_)
      rw [show tr.relockRun = 0 from hk]
    · exact State.judgeCrossing_relock (s := w) href hin hs hk
    · exact State.judgeCrossing_goodRun (s := w) href hin hs hk
    · exact State.judgeCrossing_lock (s := w) href hin hs hk
  · have hm : w.tracker.misses im t0 := by
      intro r href
      have := hout r href
      rw [Bool.eq_false_iff, ne_eq, inWindow_iff]
      omega
    exact ⟨fun hs => congrArg _ (State.judgeCrossing_discard hm hs),
      fun hs => congrArg _ (State.judgeCrossing_restart hm hs)⟩

/-- Settles O8, by the sync state that the deadline finds. -/
theorem deadlinePlacesASyntheticReference : Obligations.DeadlinePlacesASyntheticReference := by
  intro s t r d im hu href hd hr z tr n
  have run (hs : s.tracker.sync ≠ .seeking) {w : State} (hw : (s.atInstant t).synthetic im z = w) :
      exec (.deadlineReached t) s = .next (w.handReference im z) :=
    hw ▸ exec_deadlineReached hu href hd hr hs
  refine ⟨fun hs => ?_, fun hs hn => ?_, fun hs hn => ?_, fun hs => ?_⟩
  · exact run (by simp [hs]) (State.synthetic_locked hs)
  · refine run (by simp [hs]) ((State.synthetic_held (s := s.atInstant t) hs hn).trans ?_)
    rw [show tr.sync = .holdover from hs]; rfl
  · exact run (by simp [hs]) (State.synthetic_loses hs hn)
  · refine run (by simp [hs]) ((State.synthetic_lost (s := s.atInstant t) hs).trans ?_)
    rw [show tr.sync = .lost from hs]; rfl

end Sys2Proof.Machine
end

section
/-! PROOF. What the entries to a mode, refusals and trips leave alone; a cycle reference and its
receivers (R8, R9, R21, R22, R50, R117, R118, R136). -/

namespace Sys2Proof.Machine

open Sys2Proof

/-! ## A firing outside RUNNING -/

/-- Outside RUNNING a fire message starts no commutation (R90). -/
theorem State.fire_idle {s : State} (h : s.group.mode ≠ .running) (k : FireKind) (j : Valve) :
    s.fire k j = s.fireOwn k j := by
  obtain ⟨-, -, -, -, hgroup, -⟩ := State.fireOwn_frame s k j
  rw [State.fire_eq, hgroup, State.noteUpper_mode, if_neg h]

theorem State.noteUpper_trips (s : State) (j : Valve) :
    (s.noteUpper j).group.trips = s.group.trips := by
  obtain ⟨g, h, hg⟩ := s.noteUpper_eq j
  rw [h]
  exact (congrArg Group.trips hg :)

/-! ## What the entries to a mode leave alone -/

/-- Of a valve the zero queue, the slips and the channel but for its last-send time are as they
were. -/
structure ValveFrame (v w : ValveRecord) : Prop where
  zeros : w.schedule.zeros = v.schedule.zeros
  slips : w.schedule.slips = v.schedule.slips
  channel : w.channel = { v.channel with lastSend := w.channel.lastSend }

theorem ValveFrame.refl (v : ValveRecord) : ValveFrame v v := ⟨rfl, rfl, rfl⟩

theorem ValveFrame.trans {v w x : ValveRecord} (h : ValveFrame v w) (h' : ValveFrame w x) :
    ValveFrame v x :=
  ⟨h'.zeros.trans h.zeros, h'.slips.trans h.slips, by rw [h'.channel, h.channel]⟩

/-- What entering a mode, refusing and tripping leave alone: the tracker, the guard but for its
advance, the frame of each valve; and no trip cause is lost. -/
structure ModeFrame (s u : State) : Prop where
  tracker : u.tracker = s.tracker
  guard : u.guard = { s.guard with advance := u.guard.advance }
  valves : ∀ j, ValveFrame (s.valve j) (u.valve j)
  trips : ∀ c, s.group.trips.has c = true → u.group.trips.has c = true

namespace ModeFrame

theorem refl (s : State) : ModeFrame s s := ⟨rfl, rfl, fun _ => .refl _, fun _ h => h⟩

theorem trans {s u w : State} (h : ModeFrame s u) (h' : ModeFrame u w) : ModeFrame s w where
  tracker := h'.tracker.trans h.tracker
  guard := by rw [h'.guard, h.guard]
  valves j := (h.valves j).trans (h'.valves j)
  trips c hc := h'.trips c (h.trips c hc)

/-- An operation that leaves the tracker, the valves and, but for the advance, the guard. -/
theorem of_valves {s u : State} (ht : u.tracker = s.tracker)
    (hg : u.guard = { s.guard with advance := u.guard.advance })
    (hv : ∀ j, u.valve j = s.valve j)
    (hc : ∀ c, s.group.trips.has c = true → u.group.trips.has c = true) : ModeFrame s u :=
  ⟨ht, hg, fun j => by rw [hv j]; exact .refl _, hc⟩

/-- A fold is framed when each of its steps is, in the states that satisfy what they keep. -/
theorem foldl {α : Type} {f : State → α → State} {P : State → Prop}
    (hf : ∀ s a, P s → P (f s a) ∧ ModeFrame s (f s a)) (as : List α) {s : State} (hs : P s) :
    ModeFrame s (as.foldl f s) := by
  induction as generalizing s with
  | nil => exact refl s
  | cons a as ih =>
    obtain ⟨hP, hF⟩ := hf s a hs
    exact hF.trans (ih hP)

end ModeFrame

theorem State.choose_modeFrame (s : State) : ModeFrame s s.choose.2 := by
  refine .of_valves (by simp) (by simp) (fun j => ?_) fun c h => by simpa using h
  unfold State.valve
  simp

theorem State.leaveMode_modeFrame (s : State) : ModeFrame s s.leaveMode := by
  unfold State.leaveMode
  split
  · unfold State.cancelSchedules
    exact ⟨rfl, rfl, fun j => by rw [State.mapValves_valve]; exact ⟨rfl, rfl, rfl⟩, fun _ h => h⟩
  · exact .refl s

theorem State.enterBlocked_modeFrame (s : State) : ModeFrame s s.enterBlocked :=
  (State.leaveMode_modeFrame s).trans (.of_valves rfl rfl (fun _ => rfl) fun _ h => h)

theorem State.refuse_modeFrame (s : State) (r : RefusalReason) : ModeFrame s (s.refuse r) :=
  .of_valves rfl rfl (fun _ => rfl) fun _ h => h

theorem State.enterRunning_modeFrame (s : State) : ModeFrame s s.enterRunning :=
  .of_valves rfl rfl (fun _ => rfl) fun _ h => h

theorem State.addTrip_modeFrame (s : State) (c : TripCause) : ModeFrame s (s.addTrip c) := by
  unfold State.addTrip
  split
  · exact .refl s
  · exact .of_valves rfl rfl (fun _ => rfl) fun c' h => by simp [TripSet.has_add, h]

theorem State.absorbHanded_modeFrame (s : State) : ModeFrame s s.absorbHanded :=
  .trans (.of_valves rfl rfl (fun _ => rfl) fun _ h => h : ModeFrame s { s with handed := [] })
    (.foldl (P := fun _ => True) (fun s c _ => ⟨trivial, s.addTrip_modeFrame c⟩) _ trivial)

theorem State.fireOwn_modeFrame (s : State) (k : FireKind) (j : Valve) :
    ModeFrame s (s.fireOwn k j) := by
  obtain ⟨-, hguard, htracker, -, hgroup, hothers, -, -, hchannel, hschedule, -, -⟩ :=
    State.fireOwn_frame s k j
  obtain ⟨-, -, -, -, -, -, -, -, -, -, hcount⟩ := (s.valve j).countFiring_frame k
  rw [hcount] at hschedule
  refine ⟨htracker, by rw [hguard], fun i => ?_, fun c h => ?_⟩
  · by_cases hi : i = j
    · subst hi
      exact ⟨by rw [hschedule], by rw [hschedule], by rw [hchannel]⟩
    · rw [hothers i hi]
      exact .refl _
  · rw [hgroup, State.noteUpper_trips]
    exact h

theorem State.fireLegs_modeFrame {s : State} (h : s.group.mode ≠ .running) :
    ModeFrame s s.fireLegs := by
  unfold State.fireLegs
  split
  · exact .refl s
  · refine (State.choose_modeFrame s).trans
      (.foldl (P := fun u => u.group.mode ≠ .running) (fun u j hu => ?_) _ (by simpa using h))
    rw [State.fire_idle hu]
    obtain ⟨-, -, -, -, hgroup, -⟩ := State.fireOwn_frame u .bypass j
    refine ⟨?_, State.fireOwn_modeFrame u .bypass j⟩
    rw [hgroup, State.noteUpper_mode]
    exact hu

theorem State.enterBypass_modeFrame (s : State) : ModeFrame s s.enterBypass := by
  unfold State.enterBypass
  refine (State.leaveMode_modeFrame s).trans ?_
  generalize s.leaveMode = s1
  refine .trans ?_ (State.absorbHanded_modeFrame _)
  refine .trans (u := State.fireLegs { s1 with group := { s1.group with
    mode := .bypass, origin := none
    legs := some { y := legOf s1.group.lastUpperY, d := legOf s1.group.lastUpperD }
    gatingExpiry := none } }) (.trans ?_ (State.fireLegs_modeFrame (by simp))) ?_
  · exact .of_valves rfl rfl (fun _ => rfl) fun _ h => h
  · exact .of_valves rfl rfl (fun _ => rfl) fun _ h => h

theorem State.actOnTrip_modeFrame (s : State) (c : TripCause) : ModeFrame s (s.actOnTrip c) := by
  unfold State.actOnTrip
  split
  · exact .refl s
  · exact .refl s
  · exact (State.enterBlocked_modeFrame s).trans (State.refuse_modeFrame ..)
  · split
    · exact State.enterBypass_modeFrame s
    · exact .refl s

theorem State.latch_modeFrame (s : State) (c : TripCause) : ModeFrame s (s.latch c) := by
  unfold State.latch
  split
  · exact .refl s
  · split
    · exact State.addTrip_modeFrame s c
    · exact (State.addTrip_modeFrame s c).trans (State.actOnTrip_modeFrame ..)

theorem State.settle_modeFrame (s : State) : ModeFrame s s.settle :=
  .trans (.of_valves rfl rfl (fun _ => rfl) fun _ h => h : ModeFrame s { s with handed := [] })
    (.foldl (P := fun _ => True) (fun s c _ => ⟨trivial, s.latch_modeFrame c⟩) _ trivial)

theorem State.recheck_modeFrame (s : State) : ModeFrame s s.recheck := by
  unfold State.recheck
  split
  · split
    · exact State.enterRunning_modeFrame s
    · exact (State.enterBlocked_modeFrame s).trans (State.refuse_modeFrame ..)
  · exact .refl s

theorem State.recheckAndSettle_modeFrame (s : State) : ModeFrame s s.recheckAndSettle := by
  unfold State.recheckAndSettle
  split
  · split
    · exact State.recheck_modeFrame s
    · simp only
      split
      · exact ((State.choose_modeFrame s).trans (State.settle_modeFrame _)).trans
          (State.recheck_modeFrame _)
      · exact ((State.choose_modeFrame s).trans (State.recheck_modeFrame _)).trans
          (State.settle_modeFrame _)
  · exact State.settle_modeFrame s

/-! ## The causes handed -/

@[simp] theorem State.addTrip_handed (s : State) (c : TripCause) :
    (s.addTrip c).handed = s.handed := by
  unfold State.addTrip
  split <;> rfl

/-- A cause that is added is held. -/
theorem State.addTrip_has (s : State) (c : TripCause) :
    (s.addTrip c).group.trips.has c = true := by
  unfold State.addTrip
  split
  · assumption
  · simp [TripSet.has_add]

theorem foldl_addTrip_handed (cs : List TripCause) (s : State) :
    (cs.foldl State.addTrip s).handed = s.handed := by
  induction cs generalizing s with
  | nil => rfl
  | cons c cs ih => rw [List.foldl_cons, ih, State.addTrip_handed]

@[simp] theorem State.enterBypass_handed (s : State) : s.enterBypass.handed = [] :=
  foldl_addTrip_handed _ _

@[simp] theorem State.leaveMode_handed (s : State) : s.leaveMode.handed = s.handed := by
  unfold State.leaveMode
  split <;> rfl

@[simp] theorem State.enterBlocked_handed (s : State) : s.enterBlocked.handed = s.handed :=
  State.leaveMode_handed s

@[simp] theorem State.refuse_handed (s : State) (r : RefusalReason) :
    (s.refuse r).handed = s.handed := rfl

@[simp] theorem State.recheck_handed (s : State) : s.recheck.handed = s.handed := by
  unfold State.recheck
  split
  · split
    · rfl
    · simp
  · rfl

/-- A latched cause leaves no cause behind. -/
theorem State.latch_handed {s : State} (h : s.handed = []) (c : TripCause) :
    (s.latch c).handed = [] := by
  unfold State.latch State.actOnTrip
  split
  · exact h
  · split
    · simpa using h
    · split
      · simpa using h
      · simpa using h
      · simpa using h
      · split
        · simp
        · simpa using h

/-- Every cause but SYNC_LOST in BLOCKED is held once it has been handed (R136). -/
theorem State.latch_has {s : State} {c : TripCause}
    (h : ¬ (c = .syncLost ∧ s.group.mode = .blocked)) :
    (s.latch c).group.trips.has c = true := by
  unfold State.latch
  split
  · rename_i held
    exact held.resolve_right h
  · split
    · exact State.addTrip_has s c
    · exact (State.actOnTrip_modeFrame _ c).trips c (State.addTrip_has s c)

/-- Causes taken one after another leave none behind, and all but SYNC_LOST are held then. -/
theorem foldl_latch (cs : List TripCause) {s : State} (h : s.handed = []) :
    (cs.foldl State.latch s).handed = []
      ∧ ∀ c ∈ cs, c ≠ .syncLost → (cs.foldl State.latch s).group.trips.has c = true := by
  induction cs generalizing s with
  | nil => exact ⟨h, by simp⟩
  | cons c cs ih =>
    obtain ⟨handed, held⟩ := ih (State.latch_handed h c)
    refine ⟨handed, fun c' hc' hs => ?_⟩
    rcases List.mem_cons.1 hc' with rfl | hc'
    · exact (ModeFrame.foldl (P := fun _ => True)
        (fun s c _ => ⟨trivial, s.latch_modeFrame c⟩) cs trivial).trips c'
          (State.latch_has fun e => hs e.1)
    · exact held c' hc' hs

theorem State.settle_handed (s : State) : s.settle.handed = [] := (foldl_latch _ rfl).1

theorem State.settle_has {s : State} {c : TripCause} (hc : c ∈ s.handed) (hs : c ≠ .syncLost) :
    s.settle.group.trips.has c = true := (foldl_latch _ rfl).2 c hc hs

theorem State.recheckAndSettle_handed (s : State) : s.recheckAndSettle.handed = [] := by
  unfold State.recheckAndSettle
  split
  · split
    · rename_i h
      simpa using h
    · simp only
      split
      · rw [State.recheck_handed, State.settle_handed]
      · exact State.settle_handed _
  · exact State.settle_handed s

theorem State.recheckAndSettle_has {s : State} {c : TripCause} (hc : c ∈ s.handed)
    (hs : c ≠ .syncLost) : s.recheckAndSettle.group.trips.has c = true := by
  unfold State.recheckAndSettle
  split
  · split
    · rename_i h
      rw [List.isEmpty_iff.1 h] at hc
      cases hc
    · simp only
      split
      · exact (State.recheck_modeFrame _).trips c (State.settle_has (by simpa using hc) hs)
      · exact State.settle_has (by simpa using hc) hs
  · exact State.settle_has hc hs

/-! ## The parts of a reference -/

/-- A zero is appended to an empty queue, or behind one zero at least floor(P/4) before it (R22). -/
theorem zeroFits_iff {zeros : List Instant} {z : Instant} {p : Nat} :
    zeroFits zeros z p = true ↔ zeros = []
      ∨ ∃ z1, zeros = [z1] ∧ (z = after z1 (p / 4) ∨ later z (after z1 (p / 4)) = true) := by
  rcases zeros with _ | ⟨z1, _ | ⟨z2, rest⟩⟩ <;> simp [zeroFits, reached]

/-- Of everything but the valves and the links nothing moves. -/
def ZerosOffered (s u : State) : Prop :=
  u = { s with valves := u.valves, linkA := u.linkA, linkB := u.linkB }

theorem ZerosOffered.trans {s u w : State} (h : ZerosOffered s u) (h' : ZerosOffered u w) :
    ZerosOffered s w := by
  unfold ZerosOffered at *
  rw [h', h]

theorem State.offerZero_only (s : State) (p : Nat) (z : Instant) (j : Valve) :
    ZerosOffered s (s.offerZero p z j) := by
  unfold State.offerZero
  simp only
  split <;> rfl

/-- Prediction moves the valves and the links alone. -/
theorem State.predictZeros_only (s : State) (im : Image) (tref : Instant) (p : Nat) :
    ZerosOffered s (s.predictZeros im tref p) := by
  unfold State.predictZeros
  induction allValves generalizing s with
  | nil => rfl
  | cons j js ih => exact (s.offerZero_only p _ j).trans (ih _)

theorem State.offerZero_valve_ne (s : State) (p : Nat) (z : Instant) {i j : Valve} (h : i ≠ j) :
    (s.offerZero p z j).valve i = s.valve i := by
  unfold State.offerZero
  simp only
  split <;> simp [h]

/-- An offered zero that does not fit posts SLIP for its valve, and nothing else is posted (R22). -/
theorem State.offerZero_word (s : State) (p : Nat) (z : Instant) (j : Valve) (l : Link)
    (src : Source) :
    (s.offerZero p z j).word l src
      = if src = .valve j ∧ zeroFits (s.valve j).schedule.zeros z p = false
        then s.word l src ||| valveSlip else s.word l src := by
  unfold State.offerZero
  simp only
  split
  · rename_i h
    simp [h]
  · rename_i h
    by_cases hs : src = .valve j <;> simp [h, hs]

section
variable (im : Image) (tref : Instant) (p : Nat)

theorem foldl_offerZero_word (js : List Valve) (hn : js.Nodup) (s : State) (l : Link)
    (src : Source) :
    (js.foldl (fun s j => s.offerZero p (zeroFrom im j tref p) j) s).word l src
      = if ∃ j ∈ js, src = .valve j
          ∧ zeroFits (s.valve j).schedule.zeros (zeroFrom im j tref p) p = false
        then s.word l src ||| valveSlip else s.word l src := by
  induction js generalizing s with
  | nil => simp
  | cons j js ih =>
    obtain ⟨hj, hn⟩ := List.nodup_cons.1 hn
    have others : ∀ i ∈ js, (s.offerZero p (zeroFrom im j tref p) j).valve i = s.valve i :=
      fun i hi => State.offerZero_valve_ne s p _ fun e => hj (e ▸ hi)
    rw [List.foldl_cons, ih hn]
    by_cases hs : src = .valve j
    · subst hs
      have hne : ∀ i ∈ js, j ≠ i := fun i hi e => hj (e ▸ hi)
      have hnone : ¬ ∃ i ∈ js, Source.valve j = .valve i
          ∧ zeroFits ((s.offerZero p (zeroFrom im j tref p) j).valve i).schedule.zeros
              (zeroFrom im i tref p) p = false := by
        rintro ⟨i, hi, e, -⟩
        exact hne i hi (Source.valve.inj e)
      rw [if_neg hnone, State.offerZero_word]
      refine if_congr ?_ rfl rfl
      constructor
      · exact fun h => ⟨j, by simp, h⟩
      · rintro ⟨i, -, e, hi⟩
        obtain rfl := Source.valve.inj e
        exact ⟨rfl, hi⟩
    · rw [State.offerZero_word, if_neg (not_and_of_not_left _ hs)]
      refine if_congr ?_ rfl rfl
      constructor
      · rintro ⟨i, hi, e, hf⟩
        rw [others i hi] at hf
        exact ⟨i, List.mem_cons_of_mem _ hi, e, hf⟩
      · rintro ⟨i, hi, e, hf⟩
        rcases List.mem_cons.1 hi with rfl | hi
        · exact absurd e hs
        · exact ⟨i, hi, e, by rw [others i hi]; exact hf⟩

/-- Prediction posts SLIP for the valves whose zero does not fit (R22). -/
theorem State.predictZeros_word (s : State) (l : Link) (src : Source) :
    (s.predictZeros im tref p).word l src
      = if ∃ j, src = .valve j
          ∧ zeroFits (s.valve j).schedule.zeros (zeroFrom im j tref p) p = false
        then s.word l src ||| valveSlip else s.word l src := by
  unfold State.predictZeros
  rw [foldl_offerZero_word im tref p allValves allValves_nodup]
  simp

end

/-- The guard's cycle closed, written out (R117, R118). -/
theorem State.closeGuardCycle_eq (s : State) :
    s.closeGuardCycle = { s with
      guard := { s.guard with
        failCycles := if s.guard.mark then min 255 (s.guard.failCycles + 1) else 0
        mark := false, reportedLow := s.guard.lowest, lowest := none }
      handed := s.handed ++ if s.guard.mark = true
          ∧ s.par Par.cflim ≤ (if s.guard.mark then min 255 (s.guard.failCycles + 1) else 0)
        then [.persistentCf] else [] } := by
  unfold State.closeGuardCycle
  rcases hm : s.guard.mark with _ | _
  · simp
  · by_cases hc : s.par Par.cflim ≤ min 255 (s.guard.failCycles + 1)
    · simp only [if_true, true_and, Bool.true_and, if_pos hc]
      exact if_pos (decide_eq_true hc)
    · simp only [if_true, true_and, Bool.true_and, if_neg hc, List.append_nil]
      exact if_neg fun h => hc (of_decide_eq_true h)

theorem ValveRecord.offered_of_fits {v : ValveRecord} {p : Nat} {z : Instant}
    (h : zeroFits v.schedule.zeros z p = true) :
    v.offered p z = { v with schedule := { v.schedule with zeros := v.schedule.zeros ++ [z] } } :=
  if_pos h

theorem ValveRecord.offered_of_slip {v : ValveRecord} {p : Nat} {z : Instant}
    (h : ¬ zeroFits v.schedule.zeros z p = true) :
    v.offered p z = { v with schedule := { v.schedule with
      slips := min 65535 (v.schedule.slips + 1) } } :=
  if_neg h

/-- A reference as every receiver but the controller has taken it. -/
def State.referenceTaken (im : Image) (tref : Instant) (s : State) : State :=
  (({ s with tracker := { s.tracker with cycle := s.tracker.cycle + 1 } }).predictZeros im tref
    s.tracker.period).clearNoise.closeGuardCycle

theorem State.handReference_eq (s : State) (im : Image) (tref : Instant) :
    s.handReference im tref = (s.referenceTaken im tref).recheckAndSettle := rfl

section
variable (s : State) (im : Image) (tref : Instant)

theorem State.referenceTaken_only :
    s.referenceTaken im tref = { s with
      tracker := { s.tracker with cycle := s.tracker.cycle + 1 }
      valves := (s.referenceTaken im tref).valves
      guard := { s.guard with
        failCycles := if s.guard.mark then min 255 (s.guard.failCycles + 1) else 0
        mark := false, reportedLow := s.guard.lowest, lowest := none }
      linkA := (s.referenceTaken im tref).linkA
      linkB := (s.referenceTaken im tref).linkB
      handed := s.handed ++ if s.guard.mark = true
          ∧ s.par Par.cflim ≤ (if s.guard.mark then min 255 (s.guard.failCycles + 1) else 0)
        then [.persistentCf] else [] } := by
  have only := State.predictZeros_only
    ({ s with tracker := { s.tracker with cycle := s.tracker.cycle + 1 } }) im tref s.tracker.period
  unfold State.referenceTaken
  generalize State.predictZeros .. = x at only ⊢
  rw [State.closeGuardCycle_eq, show x = _ from only]
  rfl

theorem State.referenceTaken_group : (s.referenceTaken im tref).group = s.group := by
  rw [State.referenceTaken_only]

theorem State.referenceTaken_handed :
    (s.referenceTaken im tref).handed = s.handed ++ if s.guard.mark = true
        ∧ s.par Par.cflim ≤ (if s.guard.mark then min 255 (s.guard.failCycles + 1) else 0)
      then [.persistentCf] else [] := by
  rw [State.referenceTaken_only]

theorem State.referenceTaken_valve (j : Valve) :
    (s.referenceTaken im tref).valve j
      = { (s.valve j).offered s.tracker.period (zeroFrom im j tref s.tracker.period) with
          channel := { (s.valve j).channel with noiseCycle := 0 } } := by
  have offered : ∀ (v : ValveRecord) p z, (v.offered p z).channel = v.channel := by
    intro v p z
    unfold ValveRecord.offered
    split <;> rfl
  have valve := State.predictZeros_valve
    ({ s with tracker := { s.tracker with cycle := s.tracker.cycle + 1 } }) im tref
      s.tracker.period j
  unfold State.referenceTaken
  generalize State.predictZeros .. = x at valve ⊢
  rw [State.closeGuardCycle_eq]
  have quiet := State.mapValves_valve x j fun _ v =>
    { v with channel := { v.channel with noiseCycle := 0 } }
  rw [valve, offered] at quiet
  exact quiet

theorem State.referenceTaken_word (l : Link) (src : Source) :
    (s.referenceTaken im tref).word l src
      = if ∃ j, src = .valve j ∧ zeroFits (s.valve j).schedule.zeros
            (zeroFrom im j tref s.tracker.period) s.tracker.period = false
        then s.word l src ||| valveSlip else s.word l src := by
  have word := State.predictZeros_word im tref s.tracker.period
    ({ s with tracker := { s.tracker with cycle := s.tracker.cycle + 1 } }) l src
  unfold State.referenceTaken
  generalize State.predictZeros .. = x at word ⊢
  rw [State.closeGuardCycle_eq]
  exact word

theorem State.referenceTaken_rest : RestKept s (s.referenceTaken im tref) := by
  unfold State.referenceTaken
  refine RestKept.trans ?_ (State.closeGuardCycle_rest _)
  refine RestKept.trans ?_ (State.mapValves_rest _ _)
  exact (State.update_rest s s.counter s.guard s.group _ s.sent s.handed).trans
    (State.predictZeros_rest ..)

end

/-- Settles O10: the state after the other receivers have taken the reference is the witness, and
the controller then keeps the frame of a mode change. -/
theorem referenceReachesEveryReceiver : Obligations.ReferenceReachesEveryReceiver := by
  intro s im tref u p count z fits
  have fits_iff (j : Valve) : fits j ↔ zeroFits (s.valve j).schedule.zeros
      (zeroFrom im j tref s.tracker.period) s.tracker.period = true := zeroFits_iff.symm
  have rest : RestKept s u := s.handReference_rest im tref
  have hu : u = (s.referenceTaken im tref).recheckAndSettle := s.handReference_eq im tref
  have restTaken := s.referenceTaken_rest im tref
  have only := s.referenceTaken_only im tref
  have group := s.referenceTaken_group im tref
  have handed := s.referenceTaken_handed im tref
  have valve := s.referenceTaken_valve im tref
  have word := s.referenceTaken_word im tref
  generalize s.referenceTaken im tref = w at *
  clear_value u
  subst hu
  have frame := State.recheckAndSettle_modeFrame w
  have settles (h : s.group.mode ≠ .deblocking) : w.recheckAndSettle = w.settle := by
    rw [State.recheckAndSettle, if_neg (by rw [group]; exact h)]
  have word_of_fits {j : Valve} (hj : fits j) (l : Link) :
      w.word l (.valve j) = s.word l (.valve j) := by
    rw [word, if_neg]
    rintro ⟨i, e, hi⟩
    obtain rfl := Source.valve.inj e
    exact Bool.false_ne_true (hi.symm.trans ((fits_iff j).1 hj))
  have posted_of_slip {j : Valve} (hj : ¬ fits j) : Posted s w (.valve j) valveSlip := by
    intro l
    rw [fits_iff, Bool.not_eq_true] at hj
    rw [word, if_pos ⟨j, rfl, hj⟩]
  have tripped (hm : s.guard.mark = true) (hc : s.par Par.cflim ≤ count) :
      w.recheckAndSettle.group.trips.persistentCf = true := by
    have hin : TripCause.persistentCf ∈ w.handed := by
      rw [handed, if_pos ⟨hm, hc⟩]
      simp
    exact State.recheckAndSettle_has hin (by simp)
  refine ⟨w, only, restTaken.2, fun j => ⟨fun hj => ⟨?_, word_of_fits hj⟩,
      fun hj => ⟨?_, posted_of_slip hj⟩⟩, fun l src hsrc => ?_, fun hm hw => ?_, settles,
    fun _ => rfl, frame.tracker, frame.guard,
    fun j => ⟨(frame.valves j).zeros, (frame.valves j).slips, (frame.valves j).channel⟩, tripped,
    State.recheckAndSettle_handed w, rest⟩
  · rw [valve, ValveRecord.offered_of_fits ((fits_iff j).1 hj)]
    rfl
  · rw [valve, ValveRecord.offered_of_slip (mt (fits_iff j).2 hj)]
  · rw [word, if_neg]
    rintro ⟨j, e, -⟩
    exact hsrc j e
  · rw [settles hm, State.settle_nil hw]

end Sys2Proof.Machine
end

section
/-! PROOF. The core of the state: the unit, the tracker, and of the links what the switch rule reads
(R144 to R146). Every operation on valves, guard and group keeps it, and so does every reply; of the
requests an APPLY and a RESET do not. -/

namespace Sys2Proof.Machine

open Sys2Proof

/-! ## What the Phase Tracker and the switch rule read -/

/-- The selection, and of each link what the switch rule and the silence limit read, are as they
were. -/
structure LinkView (s u : State) : Prop where
  sel : u.sel = s.sel
  role : ∀ l, (u.link l).role = (s.link l).role
  silent : ∀ l, (u.link l).silent = (s.link l).silent
  lastValid : ∀ l, (u.link l).lastValid = (s.link l).lastValid

/-- The unit, the tracker and the links as the switch rule reads them are as they were. -/
structure CoreKept (s u : State) : Prop where
  unit : u.unit = s.unit
  tracker : u.tracker = s.tracker
  view : LinkView s u

theorem LinkView.refl (s : State) : LinkView s s := ⟨rfl, fun _ => rfl, fun _ => rfl, fun _ => rfl⟩

theorem LinkView.trans {s u w : State} (h : LinkView s u) (h' : LinkView u w) : LinkView s w where
  sel := h'.sel.trans h.sel
  role l := (h'.role l).trans (h.role l)
  silent l := (h'.silent l).trans (h.silent l)
  lastValid l := (h'.lastValid l).trans (h.lastValid l)

theorem LinkView.of_links {s u : State} (hs : u.sel = s.sel) (ha : u.linkA = s.linkA)
    (hb : u.linkB = s.linkB) : LinkView s u := by
  have link (l : Link) : u.link l = s.link l := by cases l <;> assumption
  exact ⟨hs, fun l => by rw [link], fun l => by rw [link], fun l => by rw [link]⟩

theorem RestKept.view {s u : State} (h : RestKept s u) : LinkView s u := by
  obtain ⟨-, -, -, -, -, sel, -⟩ := h.fields
  exact ⟨sel, fun l => by rw [h.2 l], fun l => by rw [h.2 l], fun l => by rw [h.2 l]⟩

theorem RestKept.unit {s u : State} (h : RestKept s u) : u.unit = s.unit := h.fields.2.1

namespace CoreKept

theorem refl (s : State) : CoreKept s s := ⟨rfl, rfl, .refl s⟩

theorem trans {s u w : State} (h : CoreKept s u) (h' : CoreKept u w) : CoreKept s w :=
  ⟨h'.unit.trans h.unit, h'.tracker.trans h.tracker, h.view.trans h'.view⟩

theorem of_rest {s u : State} (h : RestKept s u) (ht : u.tracker = s.tracker) : CoreKept s u :=
  ⟨h.unit, ht, h.view⟩

theorem of_links {s u : State} (hu : u.unit = s.unit) (ht : u.tracker = s.tracker)
    (hs : u.sel = s.sel) (ha : u.linkA = s.linkA) (hb : u.linkB = s.linkB) : CoreKept s u :=
  ⟨hu, ht, .of_links hs ha hb⟩

theorem foldl {α : Type} {f : State → α → State} (hf : ∀ s a, CoreKept s (f s a)) (as : List α)
    (s : State) : CoreKept s (as.foldl f s) := by
  induction as generalizing s with
  | nil => exact refl s
  | cons a as ih => exact (hf s a).trans (ih _)

end CoreKept

/-! ## The shared operations -/

theorem State.atInstant_core (s : State) (t : Instant) : CoreKept s (s.atInstant t) :=
  ⟨rfl, rfl, rfl, by simp, by simp, by simp⟩

theorem State.post_core (s : State) (src : Source) (bits : BitVec 12) :
    CoreKept s (s.post src bits) := .of_rest (State.post_rest ..) rfl

theorem State.setValve_core (s : State) (j : Valve) (v : ValveRecord) :
    CoreKept s (s.setValve j v) := .of_rest (State.setValve_rest ..) rfl

theorem State.modValve_core (s : State) (j : Valve) (f : ValveRecord → ValveRecord) :
    CoreKept s (s.modValve j f) := .of_rest (State.modValve_rest ..) rfl

theorem State.hand_core (s : State) (c : TripCause) : CoreKept s (s.hand c) :=
  .of_rest (State.hand_rest ..) rfl

theorem State.modLink_core (s : State) (l : Link) {f : LinkState → LinkState}
    (hf : ∀ k, (f k).role = k.role ∧ (f k).silent = k.silent ∧ (f k).lastValid = k.lastValid) :
    CoreKept s (s.modLink l f) := by
  refine ⟨by simp, by simp, by simp, fun k => ?_, fun k => ?_, fun k => ?_⟩
  all_goals
    rw [State.modLink_link]
    split
    · rename_i h
      subst h
      simp [hf]
    · rfl

/-- A change of the guard, the group, the counter, the trace or the handed causes. -/
theorem State.update_core (s : State) (counter : Nat) (guard : Guard) (group : Group)
    (sent : List Sent) (handed : List TripCause) :
    CoreKept s { s with
      counter := counter, guard := guard, group := group, sent := sent, handed := handed } :=
  .of_rest (State.update_rest s counter guard group s.tracker sent handed) rfl

theorem State.levelChange_core (s : State) (j : Valve) (c : LevelState × LevelState) :
    CoreKept s (s.levelChange j c) :=
  .of_rest (State.levelChange_rest ..) (State.levelChange_frame s j c).tracker

theorem State.closeInterval_core (s : State) (j : Valve) : CoreKept s (s.closeInterval j) := by
  obtain ⟨-, -, -, tracker, -⟩ := State.closeInterval_frame s j
  exact .of_rest (State.closeInterval_rest ..) tracker

theorem State.failCommutation_core (s : State) (j : Valve) : CoreKept s (s.failCommutation j) :=
  .of_rest (State.failCommutation_rest ..) rfl

theorem State.commutate_core (s : State) (j : Valve) : CoreKept s (s.commutate j) := by
  unfold State.commutate
  simp only
  split
  · split
    · split
      · exact State.failCommutation_core ..
      · exact State.setValve_core ..
    · exact State.setValve_core ..
  · exact .refl s

theorem State.fireOwn_core (s : State) (k : FireKind) (j : Valve) : CoreKept s (s.fireOwn k j) :=
  .of_rest (State.fireOwn_rest ..) (State.fireOwn_modeFrame s k j).tracker

theorem State.fire_core (s : State) (k : FireKind) (j : Valve) : CoreKept s (s.fire k j) := by
  rw [State.fire_eq]
  split
  · exact (State.fireOwn_core s k j).trans (State.commutate_core ..)
  · exact State.fireOwn_core s k j

theorem State.issue_core (s : State) (k : FireKind) (j : Valve) : CoreKept s (s.issue k j) :=
  (State.fire_core s k j).trans (State.modValve_core ..)

theorem State.fireLegs_core (s : State) : CoreKept s s.fireLegs := by
  unfold State.fireLegs
  split
  · exact .refl s
  · exact (CoreKept.of_rest s.choose_rest (by simp)).trans
      (.foldl (fun s j => State.fire_core s .bypass j) _ _)

theorem State.settle_core (s : State) : CoreKept s s.settle :=
  .of_rest s.settle_rest s.settle_modeFrame.tracker

theorem State.refuse_core (s : State) (r : RefusalReason) : CoreKept s (s.refuse r) :=
  .of_rest (s.refuse_rest r) rfl

theorem State.requestRun_core (s : State) (o : Origin) : CoreKept s (s.requestRun o) := by
  unfold State.requestRun
  split
  · exact .of_rest (State.enterDeblocking_rest ..) rfl
  · exact State.refuse_core ..

theorem State.judgeRequest_core (s : State) (r : Requested) : CoreKept s (s.judgeRequest r) := by
  have blocked : CoreKept s s.enterBlocked :=
    .of_rest s.enterBlocked_rest s.enterBlocked_modeFrame.tracker
  have bypass : CoreKept s s.enterBypass :=
    .of_rest s.enterBypass_rest s.enterBypass_modeFrame.tracker
  unfold State.judgeRequest
  split
  · split
    · exact .refl s
    · exact State.refuse_core ..
    · exact State.refuse_core ..
  · split
    · exact .refl s
    · exact .refl s
    · exact .refl s
    · exact .refl s
    · exact State.requestRun_core ..
    · exact State.requestRun_core ..
    · exact blocked
    · exact blocked
    · exact blocked
    · exact bypass
    · exact bypass
    · exact bypass

theorem State.clearTrips_core (s : State) : CoreKept s s.clearTrips := by
  refine .of_rest s.clearTrips_rest ?_
  unfold State.clearTrips
  split <;> rfl

/-! ## Messages and reports -/

theorem State.modChannel_core (s : State) (j : Valve) (f : Channel → Channel) :
    CoreKept s (s.modChannel j f) := State.modValve_core ..

theorem State.superviseMessage_core (s : State) (j : Valve) :
    CoreKept s (s.superviseMessage j) := by
  obtain ⟨-, -, tracker, -⟩ := s.superviseMessage_frame j
  exact .of_rest (State.superviseMessage_rest ..) tracker

theorem State.countNoise_core (s : State) (im : Image) (j : Valve) :
    CoreKept s (s.countNoise im j) := by
  unfold State.countNoise
  simp only
  split
  · exact (State.modChannel_core ..).trans (State.post_core ..)
  · exact State.modChannel_core ..

theorem State.applyAnswer_core (s : State) (j : Valve) (p : Nat) (a : Answer) :
    CoreKept s (s.applyAnswer j p a) := by
  unfold State.applyAnswer
  simp only
  split
  · exact ((State.update_core s _ s.guard s.group s.sent s.handed).trans
      (State.setValve_core ..)).trans (State.levelChange_core ..)
  · exact State.setValve_core ..

theorem State.fireProtective_core (s : State) (j : Valve) : CoreKept s (s.fireProtective j) := by
  have fired := (State.fire_core s .protective j).trans
    (State.post_core (s.fire .protective j) (.valve j) valveProtective)
  unfold State.fireProtective
  simp only
  split
  · exact fired.trans (State.issue_core ..)
  · exact fired

theorem State.quorumReached_core (s : State) (j : Valve) (b : Instant) :
    CoreKept s (s.quorumReached j b) := by
  unfold State.quorumReached State.blockBack
  simp only
  split
  · split
    · exact .refl s
    · exact State.setValve_core ..
  · split
    · split
      · exact (State.setValve_core ..).trans (.of_rest (State.measure_rest ..) rfl)
      · exact State.setValve_core ..
    · split
      · exact (State.issue_core ..).trans (State.post_core ..)
      · exact .refl s

theorem State.actOnIndication_core (s : State) (j : Valve) (m : Mark) (a : Answer) (b : Instant) :
    CoreKept s (s.actOnIndication j m a b) := by
  unfold State.actOnIndication
  split
  · split
    · exact State.quorumReached_core ..
    · exact .refl s
  · split
    · exact State.fire_core ..
    · exact .refl s

theorem State.takeReport_core (s : State) (j : Valve) (p : Nat) (cls : ReportClass) (b : Instant) :
    CoreKept s (s.takeReport j p cls b) := by
  have answered := State.applyAnswer_core s j p
    (((s.valve j).level p).take cls (s.markOf j) b s.tracker.cycle)
  unfold State.takeReport
  simp only
  split
  · exact .refl s
  · split
    · exact answered.trans (State.fireProtective_core ..)
    · split
      · exact answered.trans (State.actOnIndication_core ..)
      · exact answered

theorem State.messageArrives_core (s : State) (j : Valve) (m : Option Inbound) :
    CoreKept s (s.messageArrives j m) := by
  have taken (cls : ReportClass) (r : PulseReport) :
      CoreKept s ((s.superviseMessage j).takeReport j r.position cls r.stamp).settle :=
    ((State.superviseMessage_core s j).trans (State.takeReport_core ..)).trans
      (State.settle_core _)
  unfold State.messageArrives State.takePulseReport
  split
  · exact .refl s
  · split
    · exact State.modChannel_core ..
    · exact State.superviseMessage_core s j
    · split
      · exact (State.superviseMessage_core s j).trans (State.countNoise_core ..)
      · exact taken .ind _
      · exact taken .pfi _
      · exact taken .lft _

/-! ## Orders and requests -/

theorem State.replyStatus_core (s : State) (l : Link) (a : BitVec 6) :
    CoreKept s (s.replyStatus l a) := by
  unfold State.replyStatus
  split
  · exact s.modLink_core l fun k => ⟨rfl, rfl, rfl⟩
  · refine s.modLink_core l fun k => ?_
    unfold LinkState.enqueue LinkState.dropTopWord
    split <;> split <;> exact ⟨rfl, rfl, rfl⟩

theorem State.replyService_core (s : State) (l : Link) (a : BitVec 6) (code : BitVec 4)
    (result : ServiceResult) (data : List Byte) :
    CoreKept s (s.replyService l a code result data) := by
  unfold State.replyService
  split
  · exact s.modLink_core l fun k => ⟨rfl, rfl, rfl⟩
  · have queued := s.modLink_core l (f := fun k => k.enqueue (.service
      { address := s.replyAddress a, code := code, stored := s.stored, result := result
        counter := s.counter, data := data })) fun k => by
        unfold LinkState.enqueue
        split <;> exact ⟨rfl, rfl, rfl⟩
    exact queued.trans (.of_links rfl rfl rfl rfl rfl)

theorem State.takeOrder_core (s : State) (f : OrderFrame) : CoreKept s (s.takeOrder f) := by
  have ordered : CoreKept s { s with
      order := { alpha := f.alpha, requested := requestedOf f.mode }
      lastTaken := some s.timebase, limitPassed := false } := .of_links rfl rfl rfl rfl rfl
  unfold State.takeOrder
  simp only
  refine .trans ?_ (State.settle_core _)
  refine .trans ?_ (State.judgeRequest_core ..)
  split
  · exact ordered.trans (State.clearTrips_core _)
  · exact ordered

theorem State.serveOrder_core (s : State) (l : Link) (f : OrderFrame) :
    CoreKept s (s.serveOrder l f) := by
  unfold State.serveOrder
  refine .trans ?_ (State.replyStatus_core ..)
  split
  · exact State.takeOrder_core s f
  · exact .refl s

theorem State.answer_core (s : State) (l : Link) (h : ServiceHead) (code : BitVec 4)
    (r : ServiceResult × List Byte) : CoreKept s (s.answer l h code r) :=
  State.replyService_core ..

theorem State.setCursor_core (s : State) (l : Link) (c : Cursor) : CoreKept s (s.setCursor l c) :=
  s.modLink_core l fun _ => ⟨rfl, rfl, rfl⟩

theorem State.stampLevel_core (s : State) (v : Valve) (p : Nat) (l : Level) :
    CoreKept s (s.stampLevel v p l) :=
  (State.modValve_core s v _).trans
    (State.update_core _ _ s.guard s.group s.sent s.handed)

theorem State.handChange_core (s : State) (v : Valve) (old new : LevelState) :
    CoreKept s (s.handChange v old new) := by
  unfold State.handChange
  split
  · exact .refl s
  · exact State.levelChange_core ..

theorem State.retireLevel_core (s : State) (k : Link) (v : Valve) (p : Nat) :
    CoreKept s (s.retireLevel k v p) := by
  unfold State.retireLevel
  simp only
  refine .trans ?_ (State.settle_core _)
  refine .trans ?_ (State.handChange_core ..)
  split
  · exact (State.stampLevel_core ..).trans (State.modValve_core ..)
  · exact State.stampLevel_core ..

theorem State.restoreLevel_core (s : State) (v : Valve) (p : Nat) :
    CoreKept s (s.restoreLevel v p) :=
  ((State.stampLevel_core ..).trans (State.handChange_core ..)).trans (State.settle_core _)

theorem State.retireRequest_core (s : State) (k : Link) (j p : Byte) :
    CoreKept s (s.retireRequest k j p).1 := by
  unfold State.retireRequest
  split
  · exact .refl s
  · split
    · exact .refl s
    · split
      · exact .refl s
      · exact State.retireLevel_core ..

theorem State.restoreRequest_core (s : State) (j p : Byte) :
    CoreKept s (s.restoreRequest j p).1 := by
  unfold State.restoreRequest
  split
  · exact .refl s
  · split
    · exact .refl s
    · split
      · exact State.restoreLevel_core ..
      · exact .refl s

theorem State.clearCountsRequest_core (s : State) (j p : Byte) :
    CoreKept s (s.clearCountsRequest j p).1 := by
  unfold State.clearCountsRequest
  split
  · exact .refl s
  · split
    · exact .refl s
    · exact State.stampLevel_core ..

theorem State.configWriteRequest_core (s : State) (a n : Byte) (data : Vector Word16 8) :
    CoreKept s (s.configWriteRequest a n data).1 := by
  unfold State.configWriteRequest
  split
  · exact .refl s
  · split
    · exact .of_links rfl rfl rfl rfl rfl
    · exact .refl s

theorem State.configStoreRequest_core (s : State) : CoreKept s s.configStoreRequest.1 := by
  unfold State.configStoreRequest
  split
  · exact .refl s
  · split
    · exact .refl s
    · split
      · exact .of_links rfl rfl rfl rfl rfl
      · exact .refl s

/-- An APPLY is refused without effect, or carried out with a valid staging image and, in READY, in
BLOCKED alone (R162, R165). -/
theorem State.configApplyRequest_cases (s : State) :
    s.configApplyRequest.1 = s
      ∨ (imageValid s.staging = true ∧ (s.isReady = true → s.group.mode = .blocked)
        ∧ s.configApplyRequest.1 = s.applyStaging) := by
  unfold State.configApplyRequest
  split
  · exact .inl rfl
  · split
    · exact .inl rfl
    · split
      · exact .inl rfl
      · rename_i hmode
        split
        · rename_i hvalid
          exact .inr ⟨hvalid, fun hr => by simpa [hr] using hmode, rfl⟩
        · exact .inl rfl

theorem State.resetRefusal_none {s : State} (h : s.resetRefusal = none) :
    s.group.mode = .blocked := by
  unfold State.resetRefusal at h
  split at h
  · cases h
  · split at h
    · cases h
    · rename_i hm
      simpa using hm

/-- What serving a frame can do to the core: nothing, the APPLY of a valid image, or the service
reset. The APPLY in READY and the reset come in BLOCKED alone (R162). -/
inductive Served (s u : State) : Prop
  | kept (h : CoreKept s u)
  | applied (valid : imageValid s.staging = true)
      (mode : s.isReady = true → s.group.mode = .blocked) (h : CoreKept s.applyStaging u)
  | reset (mode : s.group.mode = .blocked) (h : u = s.serviceReset)

/-- A changing request that keeps what is read here, whether it is carried out or refused. -/
theorem State.change_core (s : State) (l : Link) (h : ServiceHead) (code : BitVec 4)
    {run : State → State × ServiceResult × List Byte} (hr : CoreKept s (run s).1) :
    CoreKept s (s.change l h code run) := by
  unfold State.change
  split
  · exact hr.trans (State.replyService_core ..)
  · exact State.replyService_core ..

theorem State.serveConfigApply_eq (s : State) (l : Link) (h : ServiceHead) :
    s.serveConfigApply l h = if s.mayChange l h.role
      then s.configApplyRequest.1.replyService l h.address Request.configApply.code
        s.configApplyRequest.2 []
      else s.replyService l h.address Request.configApply.code .notActive [] := rfl

theorem State.serveConfigApply_served (s : State) (l : Link) (h : ServiceHead) :
    Served s (s.serveConfigApply l h) := by
  rw [State.serveConfigApply_eq]
  split
  · rcases s.configApplyRequest_cases with e | ⟨valid, mode, e⟩
    · rw [e]
      exact .kept (State.replyService_core ..)
    · rw [e]
      exact .applied valid mode (State.replyService_core ..)
  · exact .kept (State.replyService_core ..)

theorem State.serveReset_served (s : State) (l : Link) (h : ServiceHead) :
    Served s (s.serveReset l h) := by
  unfold State.serveReset
  split
  · split
    · exact .kept (State.replyService_core ..)
    · rename_i hr
      exact .reset (State.resetRefusal_none hr) rfl
  · exact .kept (State.replyService_core ..)

theorem State.serveRequest_served (s : State) (l : Link) (h : ServiceHead) (r : Request) :
    Served s (s.serveRequest l h r) := by
  cases r with
  | lookUpLevel j p => exact .kept (State.answer_core ..)
  | lookUpValve j => exact .kept (State.answer_core ..)
  | seek j p =>
    refine .kept ?_
    unfold State.serveRequest State.serveSeek
    simp only
    split
    · exact State.answer_core ..
    · exact (State.setCursor_core ..).trans (State.answer_core ..)
  | walk since =>
    refine .kept ?_
    unfold State.serveRequest State.serveWalk
    simp only
    split
    · exact (State.setCursor_core ..).trans (State.answer_core ..)
    · exact State.answer_core ..
  | retire j p => exact .kept (s.change_core l h _ (s.retireRequest_core l j p))
  | restore j p => exact .kept (s.change_core l h _ (s.restoreRequest_core j p))
  | clearCounts j p => exact .kept (s.change_core l h _ (s.clearCountsRequest_core j p))
  | configRead a n => exact .kept (State.answer_core ..)
  | configWrite a n data =>
    exact .kept (s.change_core l h _ (run := fun s =>
      ((s.configWriteRequest a n data).1, (s.configWriteRequest a n data).2, []))
      (s.configWriteRequest_core a n data))
  | configApply => exact s.serveConfigApply_served l h
  | configStore =>
    exact .kept (s.change_core l h _ (run := fun s =>
      (s.configStoreRequest.1, s.configStoreRequest.2, [])) s.configStoreRequest_core)
  | reset => exact s.serveReset_served l h

end Sys2Proof.Machine
end

section
/-! PROOF. Frames that arrive: an ORDER frame reads back, the bytes that pass the checks of R142
spell an ORDER or a SERVICE frame, and the role a frame claims is the one it is served with. -/

namespace Sys2Proof.Machine

open Sys2Proof

/-! ## The bytes of frames -/

@[simp] theorem roleOf_roleBit (r : Role) : roleOf (roleBit r).msb = r := by cases r <;> rfl

@[simp] theorem roleBit_roleOf (b : Bool) : roleBit (roleOf b) = BitVec.ofBool b := by
  cases b <;> rfl

/-- A SERVICE frame claims the role of its head. -/
theorem roleClaimed_serviceBytes (h : ServiceHead) (r : Request) :
    roleClaimed (serviceBytes h r) = h.role := by
  have e : (roleBit h.role ++ h.spare ++ r.code).msb = (roleBit h.role).msb := by
    rw [BitVec.msb_append, if_neg (by decide), BitVec.msb_append, if_neg (by decide)]
  exact (congrArg roleOf e).trans (roleOf_roleBit h.role)

theorem append_kind (a : BitVec 6) (k : BitVec 2) :
    (a ++ k : BitVec (6 + 2)).extractLsb' 0 2 = k := BitVec.extractLsb'_append_eq_right

theorem append_address (a : BitVec 6) (k : BitVec 2) :
    (a ++ k : BitVec (6 + 2)).extractLsb' 2 6 = a := BitVec.extractLsb'_append_eq_left

/-- The fields of byte 1 of an ORDER frame. -/
theorem orderByte1_eq (b : Byte) :
    (roleBit (roleOf b.msb) ++ flag (b.getLsbD 6) ++ b.extractLsb' 2 4 ++ b.extractLsb' 0 2
      : BitVec (1 + 1 + 4 + 2)) = b := by
  rw [roleBit_roleOf, flag]
  apply BitVec.eq_of_getLsbD_eq
  intro i hi
  rw [BitVec.getLsbD_append, BitVec.getLsbD_append, BitVec.getLsbD_append]
  interval_cases i <;> simp [BitVec.msb_eq_getLsbD_last]

theorem kindByte_eq (b : Byte) : (b.extractLsb' 2 6 ++ b.extractLsb' 0 2 : BitVec (6 + 2)) = b := by
  apply BitVec.eq_of_getLsbD_eq
  intro i hi
  rw [BitVec.getLsbD_append]
  interval_cases i <;> simp

/-- The fields of byte 1 of an ORDER frame read back. -/
theorem orderByte1_fields (r : Role) (c : Bool) (x : BitVec 4) (m : BitVec 2) :
    let b : Byte := roleBit r ++ flag c ++ x ++ m
    roleOf b.msb = r ∧ b.getLsbD 6 = c ∧ b.extractLsb' 2 4 = x ∧ b.extractLsb' 0 2 = m := by
  intro b
  refine ⟨?_, ?_, BitVec.eq_of_getLsbD_eq fun i hi => ?_, BitVec.extractLsb'_append_eq_right⟩
  · have h : b.msb = (roleBit r).msb := by
      rw [BitVec.msb_append, if_neg (by decide), BitVec.msb_append, if_neg (by decide),
        BitVec.msb_append, if_neg (by decide)]
    rw [h, roleOf_roleBit]
  · rw [BitVec.getLsbD_append, BitVec.getLsbD_append, BitVec.getLsbD_append]
    simp [flag]
  · rw [BitVec.getLsbD_extractLsb', BitVec.getLsbD_append, BitVec.getLsbD_append]
    interval_cases i <;> simp

/-- An ORDER frame claims the role of its field. -/
theorem roleClaimed_orderBytes (f : OrderFrame) : roleClaimed (orderBytes f) = f.role := by
  obtain ⟨role, -⟩ := orderByte1_fields f.role f.clearTrip f.spare f.mode
  exact role

theorem readOrder_orderBytes (f : OrderFrame) : readOrder (orderBytes f) = some f := by
  obtain ⟨role, clear, spare, mode⟩ := orderByte1_fields f.role f.clearTrip f.spare f.mode
  unfold orderBytes bytes2
  simp only [List.cons_append, List.nil_append, readOrder, append_kind, append_address, role, clear,
    spare, mode, bytes2_append, if_true]

/-- The bytes that spell an ORDER frame are its own. -/
theorem readOrder_eq_some {bytes : List Byte} {f : OrderFrame} :
    readOrder bytes = some f ↔ bytes = orderBytes f := by
  constructor
  · intro h
    unfold readOrder at h
    split at h
    · rename_i b0 b1 a1 a0 c1 c0
      split at h
      · rename_i hk
        cases h
        unfold orderBytes bytes2
        simp only [append_high, append_low, List.cons_append, List.nil_append, orderByte1_eq]
        rw [← hk, kindByte_eq]
      · cases h
    · cases h
  · rintro rfl
    exact readOrder_orderBytes f

/-- A SERVICE frame spells no ORDER frame: its kind is another. -/
theorem readOrder_serviceBytes (h : ServiceHead) (r : Request) :
    readOrder (serviceBytes h r) = none := by
  rw [Option.eq_none_iff_forall_ne_some]
  intro f hf
  have kinds := congrArg (fun bytes => (bytes.getD 0 0).extractLsb' 0 2) (readOrder_eq_some.1 hf)
  have service : (serviceBytes h r).getD 0 0 = h.address ++ serviceKind := rfl
  have order : (orderBytes f).getD 0 0 = f.address ++ orderKind := rfl
  simp only [service, order, append_kind] at kinds
  exact absurd kinds (by decide)

/-- A SERVICE frame that bytes spell claims the role of their byte 1. -/
theorem roleClaimed_of_readService {bytes : List Byte} {h : ServiceHead} {r : Request}
    (hr : readService bytes = some (h, r)) : roleClaimed bytes = h.role := by
  unfold readService at hr
  split at hr
  · rename_i b0 b1 args crc hsplit
    split at hr
    · obtain ⟨q, -, e⟩ := Option.map_eq_some_iff.1 hr
      rw [splitCrc_eq_some hsplit, ← (Prod.mk.inj e).1]
      rfl
    · cases hr
  · cases hr

/-- The checks of R142 on an ORDER frame that has its length and its kind. -/
theorem checkFrame_orderBytes (g : Option Nat) (f : OrderFrame) :
    checkFrame g (orderBytes f) = .valid ↔ orderIntact f
      ∧ addressPasses g (f.address ++ orderKind) = true ∧ f.mode ≠ 3 := by
  set b0 : Byte := f.address ++ orderKind with hb0
  set b1 : Byte := roleBit f.role ++ flag f.clearTrip ++ f.spare ++ f.mode with hb1
  have bytes : orderBytes f = (b0 :: b1 :: bytes2 f.alpha) ++ bytes2 f.crc := rfl
  have shape : shapePasses b0 b1 6 = true ↔ f.mode ≠ 3 := by
    obtain ⟨-, -, -, mode⟩ := orderByte1_fields f.role f.clearTrip f.spare f.mode
    unfold shapePasses
    rw [hb0, append_kind, if_pos rfl, hb1, mode]
    simp
  have intact : orderIntact f ↔ crc16 (b0 :: b1 :: bytes2 f.alpha) = f.crc := eq_comm
  have length : (b0 :: b1 :: bytes2 f.alpha ++ bytes2 f.crc).length = 6 := rfl
  rw [intact, ← shape, checkFrame, bytes, splitCrc_bytes2, length]
  simp only [List.headD_cons]
  by_cases hc : crc16 (b0 :: b1 :: bytes2 f.alpha) = f.crc
  · by_cases ha : addressPasses g b0 = true
    · by_cases hs : shapePasses b0 b1 6 = true <;> simp [hc, ha, hs]
    · simp [hc, ha]
  · simp [hc]

/-- A service frame of the length fixed for its code spells a request. -/
theorem readRequest_isSome {code : BitVec 4} {args : List Byte}
    (h : serviceLength code = some (args.length + 4)) : (readRequest code args).isSome := by
  have code_eq : BitVec.ofNat 4 code.toNat = code := by simp
  unfold serviceLength at h
  split at h <;> rename_i hcode
  case h_13 => cases h
  all_goals
    rw [hcode] at code_eq
    subst code_eq
  case h_7 =>
    obtain ⟨j, rfl⟩ := List.length_eq_one_iff.1 (show args.length = 1 by simpa using h.symm)
    rfl
  case h_8 =>
    rcases args with _ | ⟨s3, _ | ⟨s2, _ | ⟨s1, _ | ⟨s0, _ | ⟨x, rest⟩⟩⟩⟩⟩ <;> simp at h
    rfl
  case h_9 =>
    rcases args with _ | ⟨a, _ | ⟨n, data⟩⟩ <;> simp at h
    rfl
  case h_10 | h_11 | h_12 =>
    obtain rfl := List.length_eq_zero_iff.1 (show args.length = 0 by simpa using h.symm)
    rfl
  all_goals
    obtain ⟨j, p, rfl⟩ := List.length_eq_two.1 (show args.length = 2 by simpa using h.symm)
    rfl

/-- Bytes that pass the checks of R142 spell an ORDER or a SERVICE frame. -/
theorem reads_of_valid {g : Option Nat} {bytes : List Byte} (h : checkFrame g bytes = .valid) :
    (readOrder bytes).isSome ∨ (readService bytes).isSome := by
  have shaped : ∃ b0 rest crc, splitCrc bytes = some (b0 :: rest, crc)
      ∧ shapePasses b0 (rest.headD 0) bytes.length = true := by
    unfold checkFrame at h
    split at h
    · rename_i b0 rest crc hsplit
      split at h
      · split at h
        · split at h
          · exact ⟨b0, rest, crc, hsplit, by assumption⟩
          · cases h
        · cases h
      · cases h
    · cases h
  obtain ⟨b0, rest, crc, hsplit, hshape⟩ := shaped
  have hbytes := splitCrc_eq_some hsplit
  have length : bytes.length = rest.length + 3 := by rw [hbytes]; simp
  unfold shapePasses at hshape
  split at hshape
  · rename_i horder
    have h6 : rest.length = 3 := by
      have := (Bool.and_eq_true_iff.1 hshape).1
      rw [beq_iff_eq] at this
      omega
    obtain ⟨b1, a1, a0, rfl⟩ := List.length_eq_three.1 h6
    refine .inl ?_
    simp [hbytes, bytes2, readOrder, horder]
  · split at hshape
    · rename_i hservice
      rw [beq_iff_eq] at hshape
      rcases rest with _ | ⟨b1, args⟩
      · exact absurd hshape (by simp [serviceLength])
      · refine .inr ?_
        rw [length] at hshape
        simpa [readService, hsplit, hservice] using readRequest_isSome hshape
    · cases hshape

end Sys2Proof.Machine
end

section
/-! PROOF. What a command makes of the links, and the BLOCK of the present tick said of its frame
(R15, R142, R146, R148). -/

namespace Sys2Proof.Machine

open Sys2Proof

/-! ## The links as a command leaves them -/

theorem State.hearLink_keeps (s : State) (l : Link) (r : Role) :
    (s.hearLink l r).unit = s.unit ∧ (s.hearLink l r).tracker = s.tracker
      ∧ (s.hearLink l r).group = s.group := by
  cases l <;> exact ⟨rfl, rfl, rfl⟩

/-- A frame's arrival leaves the unit, the tracker and the group alone. -/
theorem State.receive_id_keeps (s : State) (l : Link) (bytes : List Byte) (r : Role) :
    (s.receive l bytes r id).unit = s.unit ∧ (s.receive l bytes r id).tracker = s.tracker
      ∧ (s.receive l bytes r id).group = s.group := by
  unfold State.receive
  split
  · cases l <;> exact ⟨rfl, rfl, rfl⟩
  · cases l <;> exact ⟨rfl, rfl, rfl⟩
  · unfold State.judgeSelection
    simp only [id_eq]
    split
    · exact State.hearLink_keeps s l r
    · split <;> exact State.hearLink_keeps s l r

/-- A command's reading of the links leaves the unit, the tracker and the group alone. -/
theorem State.linksAfter_keeps (s : State) (i : Instr) :
    (s.linksAfter i).unit = s.unit ∧ (s.linksAfter i).tracker = s.tracker
      ∧ (s.linksAfter i).group = s.group := by
  unfold State.linksAfter
  split
  · rw [State.judgeSilence_frame]
    exact ⟨rfl, rfl, rfl⟩
  · split
    · exact s.receive_id_keeps ..
    · exact ⟨rfl, rfl, rfl⟩

/-- The command that brings a frame leaves the links as the frame's arrival does. -/
theorem State.linksAfter_frame {i : Instr} {l : Link} {bytes : List Byte}
    (h : frameOf i = some (l, bytes)) (s : State) :
    s.linksAfter i = s.receive l bytes (roleClaimed bytes) id := by
  unfold State.linksAfter
  split
  · cases h
  · rw [h]

/-- The address check of R142 on an ORDER frame. -/
theorem State.addressPasses_iff (s : State) (a : BitVec 6) (k : BitVec 2) :
    addressPasses s.gaddr (a ++ k) = true ↔ s.addressed a := by
  unfold addressPasses State.gaddr State.addressed
  rcases s.unit with _ | _ | _ | im
  case ready =>
    simp only [append_address, beq_iff_eq, UnitState.ready.injEq, forall_eq']
  all_goals simp

/-- A frame comes with an order, as bytes of any kind, or with a request. -/
theorem frameOf_cases {i : Instr} {l : Link} {bytes : List Byte}
    (h : frameOf i = some (l, bytes)) :
    (∃ t f, i = .orderFrame t l f ∧ bytes = orderBytes f)
      ∨ (∃ t, i = .discardedFrameArrives t l bytes) ∨ ∃ q r, bytes = serviceBytes q r := by
  unfold frameOf at h
  split at h <;> cases h
  · exact .inl ⟨_, _, rfl, rfl⟩
  · exact .inr (.inl ⟨_, rfl⟩)
  all_goals exact .inr (.inr ⟨_, _, rfl⟩)

theorem requestedOf_block {m : BitVec 2} (h : m ≠ 3) : requestedOf m = .block ↔ m = 0 := by
  revert m
  decide

/-- The commands that bring a BLOCK that is taken, said of the frame. -/
theorem State.takesBlock_iff (s : State) (o : Instr) :
    s.takesBlock o = true ↔ ∃ t l f,
      (o = .orderFrame t l f ∨ o = .discardedFrameArrives t l (orderBytes f))
      ∧ orderIntact f ∧ s.addressed f.address ∧ f.role = .active ∧ f.mode = 0
      ∧ ((s.hearLink l .active).judgeSelection l .active).sel = l := by
  have frame_sel {l : Link} {f : OrderFrame} (ho : frameOf o = some (l, orderBytes f))
      (hv : checkFrame s.gaddr (orderBytes f) = .valid) (hr : f.role = .active) :
      (s.linksAfter o).sel = ((s.hearLink l .active).judgeSelection l .active).sel := by
    rw [State.linksAfter_frame ho, State.receive_valid hv, roleClaimed_orderBytes, hr]
    rfl
  constructor
  · intro h
    unfold State.takesBlock at h
    split at h
    · rename_i l bytes ho
      split at h
      · rename_i f hf hv
        obtain rfl := readOrder_eq_some.1 hf
        simp only [Bool.and_eq_true, beq_iff_eq] at h
        obtain ⟨⟨hr, hm⟩, hsel⟩ := h
        obtain ⟨intact, address, mode⟩ := (checkFrame_orderBytes _ f).1 hv
        rw [State.addressPasses_iff] at address
        rw [frame_sel ho hv hr] at hsel
        have fits := And.intro intact (And.intro address (And.intro hr
          (And.intro ((requestedOf_block mode).1 hm) hsel)))
        rcases frameOf_cases ho with ⟨t, f', rfl, hb⟩ | ⟨t, rfl⟩ | ⟨q, r, hb⟩
        · obtain rfl : f = f' :=
            Option.some.inj ((readOrder_orderBytes f).symm.trans (hb ▸ readOrder_orderBytes f'))
          exact ⟨t, l, f, .inl rfl, fits⟩
        · exact ⟨t, l, f, .inr rfl, fits⟩
        · rw [hb, readOrder_serviceBytes] at hf
          cases hf
      · cases h
    · cases h
  · rintro ⟨t, l, f, ho, intact, address, hr, hm, hsel⟩
    have ho : frameOf o = some (l, orderBytes f) := by rcases ho with rfl | rfl <;> rfl
    have hv : checkFrame s.gaddr (orderBytes f) = .valid :=
      (checkFrame_orderBytes _ f).2
        ⟨intact, (s.addressPasses_iff f.address orderKind).2 address, by rw [hm]; decide⟩
    unfold State.takesBlock
    rw [ho]
    simp only [readOrder_orderBytes, hv]
    rw [frame_sel ho hv hr, hsel, hr, hm]
    simp [requestedOf]

/-- The selection after a frame is heard at the present tick. -/
theorem State.heard_sel (s : State) (l : Link) (r : Role) :
    (s.heard s.timebase l r).sel = ((s.hearLink l r).judgeSelection l r).sel := by
  have rest : RestKept s (s.atInstant s.timebase) :=
    State.update_rest s s.counter s.guard s.group s.tracker s.sent []
  have heard : RestKept (s.hearLink l r) ((s.atInstant s.timebase).hearLink l r) :=
    rest.modLink l fun _ _ => rfl
  obtain ⟨-, -, -, -, -, sel, -⟩ := (heard.judgeSelection l r).fields
  exact sel

theorem foldl_linksAfter_keeps (is : List Instr) (s : State) :
    (is.foldl (fun w i => w.linksAfter i) s).unit = s.unit
      ∧ (is.foldl (fun w i => w.linksAfter i) s).timebase = s.timebase := by
  induction is generalizing s with
  | nil => exact ⟨rfl, rfl⟩
  | cons i is ih =>
    obtain ⟨unit, timebase⟩ := ih (s.linksAfter i)
    exact ⟨unit.trans (s.linksAfter_keeps i).1, timebase.trans (s.linksAfter_timebase i)⟩

theorem State.addressed_congr {s u : State} (h : u.unit = s.unit) (a : BitVec 6) :
    u.addressed a ↔ s.addressed a := by
  unfold State.addressed
  rw [h]

/-- When SYNC_LOST finds a BLOCK of its tick in the queue, said of the frame (R15, R142, R146,
R148). -/
theorem State.blockFollows_iff (s : State) : s.blockFollows = true ↔
    ∃ (before after : List Instr) (o : Instr) (l : Link) (f : OrderFrame),
      s.pending = before ++ o :: after ∧ (∀ i ∈ before ++ [o], tickOf i = some s.timebase)
      ∧ (o = .orderFrame s.timebase l f ∨ o = .discardedFrameArrives s.timebase l (orderBytes f))
      ∧ orderIntact f ∧ s.addressed f.address ∧ f.role = .active ∧ f.mode = 0
      ∧ ((before.foldl (fun w i => w.linksAfter i) s).heard s.timebase l .active).sel = l := by
  have heard_sel (before : List Instr) (l : Link) :
      ((before.foldl (fun w i => w.linksAfter i) s).heard s.timebase l .active).sel
        = (((before.foldl (fun w i => w.linksAfter i) s).hearLink l .active).judgeSelection l
            .active).sel := by
    rw [← State.heard_sel, (foldl_linksAfter_keeps before s).2]
  unfold State.blockFollows
  rw [blockFollowsIn_iff]
  constructor
  · rintro ⟨before, o, after, hq, ht, hb⟩
    obtain ⟨t, l, f, ho, intact, address, hr, hm, hsel⟩ := (State.takesBlock_iff _ o).1 hb
    obtain rfl : t = s.timebase := by
      have tick := ht o (by simp)
      rcases ho with rfl | rfl <;> exact Option.some.inj tick
    exact ⟨before, after, o, l, f, hq, ht, ho, intact,
      (State.addressed_congr (foldl_linksAfter_keeps before s).1 _).1 address, hr, hm,
      (heard_sel before l).trans hsel⟩
  · rintro ⟨before, after, o, l, f, hq, ht, ho, intact, address, hr, hm, hsel⟩
    exact ⟨before, o, after, hq, ht, (State.takesBlock_iff _ o).2 ⟨s.timebase, l, f, ho, intact,
      (State.addressed_congr (foldl_linksAfter_keeps before s).1 _).2 address, hr, hm,
      (heard_sel before l).symm.trans hsel⟩⟩

end Sys2Proof.Machine
end

section
/-! PROOF. What a command can do to the core of the state, said once for every command. -/

namespace Sys2Proof.Machine

open Sys2Proof

/-! ## What a command can do -/

/-- Serving a frame that arrives, against the frame's arrival alone. -/
theorem State.receive_served {serve : State → State} (hs : ∀ w, Served w (serve w)) (s : State)
    (l : Link) (bytes : List Byte) (r : Role) :
    Served (s.receive l bytes r id) (s.receive l bytes r serve) := by
  unfold State.receive
  split
  · exact .kept (.refl _)
  · exact .kept (.refl _)
  · exact hs _

/-- A frame that is discarded acts alike whatever it claims. -/
theorem State.receive_discarded {s : State} {bytes : List Byte}
    (h : checkFrame s.gaddr bytes ≠ .valid) (l : Link) (r r' : Role) :
    s.receive l bytes r id = s.receive l bytes r' id := by
  unfold State.receive
  split
  · rfl
  · rfl
  · exact absurd (by assumption) h

/-- Any bytes received, against their arrival alone. -/
theorem State.receiveBytes_served (s : State) (l : Link) (bytes : List Byte) :
    Served (s.receive l bytes (roleClaimed bytes) id) (s.receiveBytes l bytes) := by
  unfold State.receiveBytes
  split
  · rename_i f hf
    rw [readOrder_eq_some.1 hf, roleClaimed_orderBytes]
    exact State.receive_served (fun w => .kept (w.serveOrder_core l f)) ..
  · rename_i horder
    split
    · rename_i q r hr
      rw [roleClaimed_of_readService hr]
      exact State.receive_served (fun w => w.serveRequest_served l q r) ..
    · rename_i hservice
      rw [s.receive_discarded (fun hv => ?_) l _ .standby]
      · exact .kept (.refl _)
      · rcases reads_of_valid hv with h | h
        · rw [horder] at h
          cases h
        · rw [hservice] at h
          cases h

/-- What a command can do to the core of the state. -/
inductive Effect (i : Instr) (s u : State) : Prop
  /-- It keeps the core as its reading of the links leaves it. -/
  | idle (h : CoreKept (s.linksAfter i) u)
  /-- At its tick it acts on the links as its frame or silence limit does, and then is served. -/
  | served {t : Instant} (tick : tickOf i = some t) (h : Served ((s.atInstant t).linksAfter i) u)
  /-- It does not lead to READY: it is a reset or its end, or the part was not READY before. -/
  | unready (hs : tickOf i = none ∨ ∀ im, s.unit ≠ .ready im) (hu : ∀ im, u.unit ≠ .ready im)
      (tracker : u.tracker = s.tracker ∨ u.tracker = {})
  /-- It enters READY under a valid image. -/
  | starts {im : Image} {high : Bool} {now : Instant} (hs : ∀ im, s.unit ≠ .ready im)
      (valid : imageValid im = true) (hu : u.unit = .ready im)
      (tracker : u.tracker = Tracker.started im high now)
  /-- It moves the detector. -/
  | detects {d : Detector} (hu : u.unit = s.unit)
      (tracker : u.tracker = { s.tracker with detector := d }) (view : LinkView (s.linksAfter i) u)
  /-- It confirms a crossing, which is judged. -/
  | crossing {t t0 : Instant} {im : Image} (hs : s.unit = .ready im)
      (view : LinkView (s.linksAfter i) u)
      (h : u = ((s.atInstant t).setDetector (.disarmed none) true).judgeCrossing im t0)
  /-- It reaches the deadline, which places a synthetic reference. -/
  | deadline {t r : Instant} {im : Image} (hs : s.unit = .ready im)
      (sync : s.tracker.sync ≠ .seeking) (view : LinkView (s.linksAfter i) u)
      (h : u = ((s.atInstant t).synthetic im (after r s.tracker.period)).handReference im
        (after r s.tracker.period))

theorem State.unready_of_held {s : State} {c : Hold} (h : s.unit = .held c) (im : Image) :
    s.unit ≠ .ready im := by simp [h]

theorem State.unready_of_loading {s : State} {began : Instant} (h : s.unit = .loading began)
    (im : Image) : s.unit ≠ .ready im := by simp [h]

section
variable {i : Instr} {s u : State} {t : Instant}

/-- A command at a tick: in reset nothing, else its effect at the instant. -/
theorem Effect.of_atTick {f : State → State} (h : s.atTick t f = .next u)
    (hf : s.live → u = f (s.atInstant t) → Effect i s u) : Effect i s u := by
  by_cases hl : s.live
  · rw [State.atTick_live hl] at h
    cases h
    exact hf hl rfl
  · unfold State.live at hl
    push Not at hl
    obtain ⟨c, hc⟩ := hl
    rw [State.atTick_held hc] at h
    cases h
    exact .unready (.inr (State.unready_of_held hc)) (State.unready_of_held hc) (.inl rfl)

/-- A command whose condition does not hold at its tick. -/
theorem Effect.of_still (tick : tickOf i = some t)
    (hi : (s.atInstant t).linksAfter i = s.atInstant t) (hu : u = s.atInstant t) : Effect i s u :=
  .served tick (.kept (by rw [hi, hu]; exact .refl _))

/-- A command that brings no frame and keeps the core of the state. -/
theorem Effect.of_core {f : State → State} (tick : tickOf i = some t)
    (hi : (s.atInstant t).linksAfter i = s.atInstant t)
    (hf : CoreKept (s.atInstant t) (f (s.atInstant t))) (h : s.atTick t f = .next u) :
    Effect i s u :=
  .of_atTick h fun _ hu => .served tick (.kept (by rw [hi, hu]; exact hf))

/-- A command that brings a frame and serves it. -/
theorem Effect.of_frame {l : Link} {bytes : List Byte} {f : State → State}
    (tick : tickOf i = some t) (hi : frameOf i = some (l, bytes))
    (hf : ∀ w : State, Served (w.receive l bytes (roleClaimed bytes) id) (f w))
    (h : s.atTick t f = .next u) : Effect i s u :=
  .of_atTick h fun _ hu => .served tick (by rw [State.linksAfter_frame hi, hu]; exact hf _)

/-- A command that brings a request. -/
theorem Effect.of_request {l : Link} {q : ServiceHead} {r : Request}
    (tick : tickOf i = some t) (hi : frameOf i = some (l, serviceBytes q r))
    (h : s.atTick t (State.receive l (serviceBytes q r) q.role (State.serveRequest l q r))
      = .next u) : Effect i s u :=
  .of_frame tick hi (fun w => by
    rw [roleClaimed_serviceBytes]
    exact State.receive_served (fun w => w.serveRequest_served l q r) w ..) h

/-- A command of the reference input, which in READY sets the detector or leaves it. -/
theorem Effect.of_inputMoves {high : Bool} {act : Image → State → State}
    (hi : s.linksAfter i = s)
    (ha : ∀ im w, ∃ d b, act im w = w.setDetector d b) (h : s.inputMoves t high act = .next u) :
    Effect i s u := by
  unfold State.inputMoves at h
  rcases hs : s.unit with c | _ | _ | im <;> rw [hs] at h
  case held =>
    cases h
    exact .unready (.inr (State.unready_of_held hs)) (fun im => by simp) (.inl rfl)
  case ready =>
    replace h : s.atTick t (act im) = .next u := h
    rw [State.atTick_live (State.live_ready hs)] at h
    obtain ⟨d, b, e⟩ := ha im (s.atInstant t)
    cases h
    rw [e]
    exact .detects rfl rfl (by rw [hi]; exact .of_links rfl rfl rfl)
  all_goals
    have unready : ∀ im, s.unit ≠ .ready im := by simp [hs]
    exact .of_atTick h fun _ hu => by
      subst hu
      exact .unready (.inr unready) unready (.inl rfl)

end

/-! ## The rows of the input (R2, R3) -/

theorem State.setDetector_self (s : State) : s = s.setDetector s.tracker.detector s.refHigh := rfl

theorem State.breakLowRun_sets (s : State) (im : Image) (t : Instant) :
    ∃ d b, s.breakLowRun im t = s.setDetector d b := by
  rcases s.breakLowRun_cases im t with ⟨_, _, _, h⟩ | ⟨_, h⟩
  · exact ⟨_, _, h⟩
  · exact ⟨_, _, h.trans s.setDetector_self⟩

theorem State.startLowRun_sets (s : State) (t : Instant) :
    ∃ d b, s.startLowRun t = s.setDetector d b := by
  rw [State.startLowRun_eq]
  split
  · exact ⟨_, _, rfl⟩
  · exact ⟨_, _, s.setDetector_self⟩

/-! ## References -/

theorem State.lockAt_rest (s : State) (im : Image) (t0 : Instant) (p : Nat) :
    RestKept s (s.lockAt im t0 p) :=
  ((State.update_rest s s.counter s.guard s.group _ s.sent s.handed).trans
    (State.post_rest ..)).trans (State.handReference_rest ..)

theorem State.referAt_rest (s : State) (im : Image) (t0 : Instant) (p : Nat)
    (f : Tracker → Tracker) : RestKept s (s.referAt im t0 p f) :=
  (State.update_rest s s.counter s.guard s.group _ s.sent s.handed).trans
    (State.handReference_rest ..)

theorem State.discardCrossing_rest (s : State) : RestKept s s.discardCrossing :=
  (State.update_rest s s.counter s.guard s.group _ s.sent s.handed).trans (State.post_rest ..)

/-- A judged crossing is discarded, becomes a reference, or takes the tracker to LOCKED. -/
theorem State.judgeCrossing_rest (s : State) (im : Image) (t0 : Instant) :
    RestKept s (s.judgeCrossing im t0) := by
  unfold State.judgeCrossing
  simp only
  split
  · split
    · split
      · exact s.referAt_rest ..
      · split
        · exact s.lockAt_rest ..
        · exact s.referAt_rest ..
      all_goals
        split
        · exact s.lockAt_rest ..
        · exact s.referAt_rest ..
    · split
      · exact s.discardCrossing_rest
      · exact s.discardCrossing_rest
      · exact s.referAt_rest ..
      · exact s.referAt_rest ..
  · split
    · exact s.discardCrossing_rest
    · exact s.discardCrossing_rest
    · exact s.referAt_rest ..
    · exact s.referAt_rest ..

theorem State.synthetic_rest (s : State) (im : Image) (z : Instant) :
    RestKept s (s.synthetic im z) := by
  have tracked (tr : Tracker) : RestKept s { s with tracker := tr } :=
    State.update_rest s s.counter s.guard s.group tr s.sent s.handed
  unfold State.synthetic
  simp only
  split
  · exact .refl s
  · exact (tracked _).trans (State.post_rest ..)
  · split
    · exact ((tracked _).trans (State.post_rest ..)).trans (State.hand_rest ..)
    · exact tracked _
  · exact tracked _

/-! ## The commands one by one -/

section
variable {s u : State} (t : Instant) (j : Valve)

theorem Effect.resetEnd {e : ResetEnd} (h : execResetEnd s e = .next u) :
    Effect (.resetEnd e) s u := by
  unfold execResetEnd at h
  split at h
  · split at h
    · cases h
      exact .unready (.inl rfl) (fun im => by simp [State.beginLoading]) (.inl rfl)
    · cases h
      exact .unready (.inl rfl) (fun im => by simp) (.inl rfl)
  · cases h
    exact .idle (.refl s)

theorem State.enterReady_started (s : State) (im : Image) :
    (s.enterReady im).unit = .ready im
      ∧ (s.enterReady im).tracker = Tracker.started im s.refHigh s.timebase := by
  rw [State.enterReady, State.beginService_frame, State.startBlocks_frame]
  exact ⟨rfl, rfl⟩

theorem Effect.loadingReadDone {words : Image} (h : execLoadingReadDone t words s = .next u) :
    Effect (.loadingReadDone t words) s u := by
  refine .of_atTick h fun _ hu => ?_
  split at hu
  · rename_i began hs
    have unready := State.unready_of_loading (s := s) hs
    split at hu
    · simp only at hu
      split at hu
      · rename_i valid
        subst hu
        obtain ⟨unit, tracker⟩ :=
          State.enterReady_started { s.atInstant t with staging := words } words
        exact .starts unready valid unit tracker
      · subst hu
        exact .unready (.inr unready) (fun im => by simp) (.inl rfl)
    · exact .of_still rfl rfl hu
  · exact .of_still rfl rfl hu

theorem Effect.loadingTimeout (h : execLoadingTimeout t s = .next u) :
    Effect (.loadingTimeout t) s u := by
  refine .of_atTick h fun _ hu => ?_
  split at hu
  · rename_i began hs
    have unready := State.unready_of_loading (s := s) hs
    split at hu
    · subst hu
      exact .unready (.inr unready) (fun im => by simp) (.inl rfl)
    · exact .of_still rfl rfl hu
  · exact .of_still rfl rfl hu

theorem Effect.crossingCandidate (h : execCrossingCandidate t s = .next u) :
    Effect (.crossingCandidate t) s u :=
  .of_inputMoves rfl (fun im w => by
    split
    · exact ⟨_, _, rfl⟩
    · exact w.breakLowRun_sets im t) h

theorem Effect.candidateDropped (h : execCandidateDropped t s = .next u) :
    Effect (.candidateDropped t) s u :=
  .of_inputMoves rfl (fun im w => by
    split
    · split
      · exact ⟨_, _, rfl⟩
      · exact ⟨_, _, w.setDetector_self⟩
    · exact w.startLowRun_sets t) h

theorem State.ready_of_working {s : State} {im : Image} (h : s.working = some im) :
    s.unit = .ready im := by
  unfold State.working at h
  split at h
  · rename_i hs
    rw [hs, Option.some.inj h]
  · cases h

theorem Effect.crossingConfirmed (h : execCrossingConfirmed t s = .next u) :
    Effect (.crossingConfirmed t) s u := by
  refine .of_atTick h fun _ hu => ?_
  split at hu
  · rename_i im t0 hs _
    split at hu
    · refine .crossing (State.ready_of_working hs) ?_ hu
      have judged := (State.judgeCrossing_rest
        ((s.atInstant t).setDetector (.disarmed none) true) im t0).view
      have candidate : LinkView s ((s.atInstant t).setDetector (.disarmed none) true) :=
        .of_links rfl rfl rfl
      rw [hu]
      exact candidate.trans judged
    · exact .of_still rfl rfl hu
  · exact .of_still rfl rfl hu

theorem Effect.detectorRearm (h : execDetectorRearm t s = .next u) :
    Effect (.detectorRearm t) s u := by
  refine .of_atTick h fun _ hu => ?_
  split at hu
  · split at hu
    · subst hu
      exact .detects rfl rfl (.of_links rfl rfl rfl)
    · exact .of_still rfl rfl hu
  · exact .of_still rfl rfl hu

theorem Effect.deadlineReached (h : execDeadlineReached t s = .next u) :
    Effect (.deadlineReached t) s u := by
  refine .of_atTick h fun _ hu => ?_
  split at hu
  · rename_i im r d hs hr hd
    split at hu
    · rename_i due
      refine .deadline (State.ready_of_working hs) due.1 ?_ hu
      have referred := ((State.synthetic_rest (s.atInstant t) im
        (after r s.tracker.period)).trans (State.handReference_rest _ im
          (after r s.tracker.period))).view
      rw [hu]
      exact (s.atInstant_core t).view.trans referred
    · exact .of_still rfl rfl hu
  · exact .of_still rfl rfl hu

/-! The commands of valves and links keep the core of the state. -/

theorem State.takeZero_core (s : State) (j : Valve) (z : Instant) (rest : List Instant) :
    CoreKept s (s.takeZero j z rest) := by
  unfold State.takeZero
  exact s.modValve_core ..

theorem State.scheduleFiring_core (s : State) (j : Valve) : CoreKept s (s.scheduleFiring j) := by
  unfold State.scheduleFiring
  exact s.modValve_core ..

theorem State.pullIn_core (s : State) (j : Valve) : CoreKept s (s.pullIn j) := by
  unfold State.pullIn
  split
  · exact (s.issue_core ..).trans (State.post_core ..)
  · exact .refl s

theorem State.closeAtTakeUp_core (s : State) (j : Valve) : CoreKept s (s.closeAtTakeUp j) := by
  unfold State.closeAtTakeUp
  split
  · exact s.closeInterval_core j
  · exact .refl s

theorem Effect.takeUp (h : execTakeUp t j s = .next u) : Effect (.takeUp t j) s u := by
  refine .of_core rfl rfl ?_ h
  split
  · exact .refl _
  · split
    · refine .trans ?_ (State.settle_core _)
      split
      · exact ((State.takeZero_core ..).trans (State.pullIn_core ..)).trans
          (State.scheduleFiring_core ..)
      · exact (State.takeZero_core ..).trans (State.closeAtTakeUp_core ..)
    · exact .refl _

theorem State.checkReadiness_core (s : State) (j : Valve) (f : Instant) :
    CoreKept s (s.checkReadiness j f) := by
  unfold State.checkReadiness
  simp only
  split
  · exact s.setValve_core ..
  · exact s.issue_core ..

theorem Effect.firingInstant (h : execFiringInstant t j s = .next u) :
    Effect (.firingInstant t j) s u := by
  refine .of_core rfl rfl ?_ h
  split
  · split
    · exact (State.checkReadiness_core ..).trans (State.settle_core _)
    · exact .refl _
  · exact .refl _

theorem Effect.forcedFiring (h : execForcedFiring t j s = .next u) :
    Effect (.forcedFiring t j) s u := by
  refine .of_core rfl rfl ?_ h
  split
  · split
    · exact ((State.issue_core ..).trans (State.post_core ..)).trans (State.settle_core _)
    · exact .refl _
  · exact .refl _

theorem Effect.extinctionDeadline (h : execExtinctionDeadline t j s = .next u) :
    Effect (.extinctionDeadline t j) s u := by
  refine .of_core rfl rfl ?_ h
  split
  · split
    · exact (State.modValve_core ..).trans (State.failCommutation_core ..)
    · exact .refl _
  · exact .refl _

theorem Effect.bypassGating (h : execBypassGating t s = .next u) :
    Effect (.bypassGating t) s u := by
  refine .of_core rfl rfl ?_ h
  split
  · split
    · refine .trans ?_ (State.settle_core _)
      exact (State.fireLegs_core _).trans (.of_links rfl rfl rfl rfl rfl)
    · exact .refl _
  · exact .refl _

theorem Effect.channelDown (h : execChannelDown t j s = .next u) :
    Effect (.channelDown t j) s u := by
  refine .of_core rfl rfl ?_ h
  split
  · split
    · exact (((State.modChannel_core ..).trans (State.post_core ..)).trans
        (State.hand_core ..)).trans (State.settle_core _)
    · exact .refl _
  · exact .refl _

theorem Effect.vc12Idle (h : execVc12Idle t j s = .next u) : Effect (.vc12Idle t j) s u := by
  refine .of_core rfl rfl ?_ h
  split
  · split
    · exact .of_rest (State.sendIdle_rest ..) rfl
    · exact .refl _
  · exact .refl _

theorem Effect.controlLoss (h : execControlLoss t s = .next u) :
    Effect (.controlLoss t) s u := by
  refine .of_core rfl rfl ?_ h
  split
  · have passed : CoreKept (s.atInstant t) { s.atInstant t with limitPassed := true } :=
      .of_links rfl rfl rfl rfl rfl
    simp only
    split
    · exact passed
    · exact (passed.trans (State.hand_core ..)).trans (State.settle_core _)
  · exact .refl _

theorem Effect.replySent {l : Link} (h : execReplySent t l s = .next u) :
    Effect (.replySent t l) s u := by
  refine .of_core rfl rfl ?_ h
  split
  · exact .refl _
  · have next := (s.atInstant t).modLink_core l (f := fun k =>
      { k with onLine := k.waiting.head?, waiting := k.waiting.tail }) fun _ => ⟨rfl, rfl, rfl⟩
    exact next.trans (.of_links rfl rfl rfl rfl rfl)

theorem Effect.storeComplete (h : execStoreComplete t s = .next u) :
    Effect (.storeComplete t) s u := by
  refine .of_core rfl rfl ?_ h
  split
  · split
    · exact .of_links rfl rfl rfl rfl rfl
    · exact .refl _
  · exact .refl _

theorem Effect.storeFailed {why : StoreFault} (h : execStoreFailed t why s = .next u) :
    Effect (.storeFailed t why) s u := by
  refine .of_core rfl rfl ?_ h
  split
  · split
    · exact .of_links rfl rfl rfl rfl rfl
    · exact .refl _
  · exact .refl _

theorem Effect.linkSilence {l : Link} (h : execLinkSilence t l s = .next u) :
    Effect (.linkSilence t l) s u :=
  .of_atTick h fun _ hu => .served rfl (.kept (by rw [hu]; exact .refl _))

end

/-- Every command has one of these effects. -/
theorem exec_effect {i : Instr} {s u : State} (h : exec i s = .next u) : Effect i s u := by
  cases i with
  | powerOnReset => cases h; exact .unready (.inl rfl) nofun (.inr rfl)
  | resetPin => cases h; exact .unready (.inl rfl) nofun (.inr rfl)
  | resetEnd e => exact .resetEnd h
  | loadingReadDone t words => exact .loadingReadDone t h
  | loadingTimeout t => exact .loadingTimeout t h
  | crossingCandidate t => exact .crossingCandidate t h
  | candidateDropped t => exact .candidateDropped t h
  | crossingConfirmed t => exact .crossingConfirmed t h
  | detectorRearm t => exact .detectorRearm t h
  | deadlineReached t => exact .deadlineReached t h
  | takeUp t j => exact .takeUp t j h
  | firingInstant t j => exact .firingInstant t j h
  | forcedFiring t j => exact .forcedFiring t j h
  | extinctionDeadline t j => exact .extinctionDeadline t j h
  | pulseReport t j body => exact .of_core rfl rfl (State.messageArrives_core ..) h
  | oiuIdle t j body => exact .of_core rfl rfl (State.messageArrives_core ..) h
  | channelDown t j => exact .channelDown t j h
  | vc12Idle t j => exact .vc12Idle t j h
  | bypassGating t => exact .bypassGating t h
  | linkSilence t l => exact .linkSilence t h
  | controlLoss t => exact .controlLoss t h
  | orderFrame t l f =>
    refine .of_frame rfl rfl (fun w => ?_) h
    rw [roleClaimed_orderBytes]
    exact State.receive_served (fun w => .kept (w.serveOrder_core l f)) w ..
  | replySent t l => exact .replySent t h
  | lookUpLevel t l q j p => exact .of_request (r := .lookUpLevel j p) rfl rfl h
  | lookUpValve t l q j => exact .of_request (r := .lookUpValve j) rfl rfl h
  | seek t l q j p => exact .of_request (r := .seek j p) rfl rfl h
  | walk t l q since => exact .of_request (r := .walk since) rfl rfl h
  | retire t l q j p => exact .of_request (r := .retire j p) rfl rfl h
  | restore t l q j p => exact .of_request (r := .restore j p) rfl rfl h
  | clearCounts t l q j p => exact .of_request (r := .clearCounts j p) rfl rfl h
  | configRead t l q a n => exact .of_request (r := .configRead a n) rfl rfl h
  | configWrite t l q a n data => exact .of_request (r := .configWrite a n data) rfl rfl h
  | configApply t l q => exact .of_request (r := .configApply) rfl rfl h
  | configStore t l q => exact .of_request (r := .configStore) rfl rfl h
  | serviceReset t l q => exact .of_request (r := .reset) rfl rfl h
  | storeComplete t => exact .storeComplete t h
  | storeFailed t why => exact .storeFailed t h
  | lowRunStart t => exact .of_inputMoves rfl (fun _ w => w.startLowRun_sets t) h
  | lowRunBroken t => exact .of_inputMoves rfl (fun im w => w.breakLowRun_sets im t) h
  | messageOfUnknownKind t j msg => exact .of_core rfl rfl (State.messageArrives_core ..) h
  | discardedFrameArrives t l bytes =>
    exact .of_frame rfl rfl (fun w => w.receiveBytes_served l bytes) h

end Sys2Proof.Machine
end

section
/-! PROOF. A trip cause handed (R136, R137), and the links after a command in a deblocked group. -/

namespace Sys2Proof.Machine

open Sys2Proof

/-! ## A trip cause handed -/

section
variable {s : State} (c : TripCause)

theorem State.actOnTrip_idle (h : s.group.mode = .blocked ∨ s.group.mode = .bypass) :
    s.actOnTrip c = s := by
  unfold State.actOnTrip
  rcases h with h | h <;> rw [h]

theorem State.actOnTrip_deblocking (h : s.group.mode = .deblocking) :
    s.actOnTrip c = s.enterBlocked.refuse .trip := by
  unfold State.actOnTrip
  rw [h]

theorem State.actOnTrip_running (h : s.group.mode = .running) :
    s.actOnTrip c = if s.par Par.byptrip = 1 ∨ c = .controlLoss then s.enterBypass else s := by
  unfold State.actOnTrip
  rw [h]

end

theorem State.latch_unacted {s : State} {c : TripCause} (hc : s.group.trips.has c = false)
    (hb : ¬ (c = .syncLost ∧ s.group.mode = .blocked))
    (h : c = .syncLost ∧ s.blockFollows = true) :
    s.latch c = ({ s with group := { s.group with trips := s.group.trips.add c } }).post
      .trip c.bit :=
  (State.latch_new hc hb).trans (if_pos h)

theorem State.latch_acted {s : State} {c : TripCause} (hc : s.group.trips.has c = false)
    (hb : ¬ (c = .syncLost ∧ s.group.mode = .blocked))
    (h : ¬ (c = .syncLost ∧ s.blockFollows = true)) :
    s.latch c = (({ s with group := { s.group with trips := s.group.trips.add c } }).post
      .trip c.bit).actOnTrip c :=
  (State.latch_new hc hb).trans (if_neg h)

/-- A command taken in READY outside BLOCKED leaves the selection and what it rests on as its frame
or its silence limit does (R144, R145, R146). -/
theorem exec_view {s u : State} {i : Instr} (hr : s.isReady = true) (hm : s.group.mode ≠ .blocked)
    (tick : tickOf i = some s.timebase) (h : exec i s = .next u) : LinkView (s.linksAfter i) u := by
  obtain ⟨im, hs⟩ := State.isReady_iff.1 hr
  have contra (hn : tickOf i = none ∨ ∀ im, s.unit ≠ .ready im) : LinkView (s.linksAfter i) u := by
    rcases hn with hn | hn
    · rw [tick] at hn
      cases hn
    · exact absurd hs (hn im)
  cases exec_effect h with
  | idle h => exact h.view
  | served tick' h =>
    obtain rfl := Option.some.inj (tick.symm.trans tick')
    have rest : RestKept s (s.atInstant s.timebase) :=
      State.update_rest s s.counter s.guard s.group s.tracker s.sent []
    obtain ⟨unit, -, group⟩ := (s.atInstant s.timebase).linksAfter_keeps i
    have blocked : ¬ ((s.atInstant s.timebase).linksAfter i).group.mode = .blocked := by
      rw [group]
      exact hm
    cases h with
    | kept h => exact (rest.linksAfter i).view.trans h.view
    | applied _ mode _ => exact absurd (mode (State.isReady_ready (unit.trans hs))) blocked
    | reset mode _ => exact absurd mode blocked
  | unready hn _ _ => exact contra hn
  | starts hn _ _ _ => exact contra (.inr hn)
  | detects _ _ view => exact view
  | crossing _ view _ => exact view
  | deadline _ _ view _ => exact view

/-- Settles O37: a cause by the cases of `latch`, the queue by `State.blockFollows_iff`, the links
of a deblocked group by the effects of a command. -/
theorem tripCauseLatchesAndActs : Obligations.TripCauseLatchesAndActs := by
  refine ⟨fun s c => ?_, State.blockFollows_iff, fun s u i hr hm tick h => ?_⟩
  · intro added unacted
    refine ⟨fun h => State.latch_held (.inl h), fun hc hm => State.latch_held (.inr ⟨hc, hm⟩),
      fun hc hb => ⟨State.latch_unacted hc hb, fun ha => ?_, State.latch_has hb⟩,
      s.group.trips.has_add c, by cases c <;> rfl, rfl⟩
    rw [State.latch_acted hc hb ha]
    refine ⟨State.actOnTrip_idle (s := added) c, State.actOnTrip_deblocking (s := added) c,
      fun hm h => ?_, fun hm hp h => ?_⟩
    · exact (State.actOnTrip_running (s := added) c hm).trans (if_pos h)
    · exact (State.actOnTrip_running (s := added) c hm).trans (if_neg (not_or_intro hp h))
  · have view := exec_view hr hm tick h
    exact ⟨view.sel, fun l => ⟨view.role l, view.silent l, view.lastValid l⟩⟩

end Sys2Proof.Machine
end

section
/-! PROOF. Every step keeps the tracker in its ranges (R4, R5, R6, R10 to R13). -/

namespace Sys2Proof.Machine

open Sys2Proof

/-! ## The tracker in its ranges -/

theorem imageValid_holdmax {im : Image} (h : imageValid im = true) : 1 ≤ Par.holdmax im := by
  simp only [imageValid, groupInRange, inRange, Bool.and_eq_true, decide_eq_true_eq] at h
  omega

/-- A part that is not READY keeps the tracker in its ranges when it keeps the tracker. -/
theorem State.TrackerInv.unready {s u : State} (h : s.TrackerInv) (hu : ∀ im, u.unit ≠ .ready im)
    (ht : u.tracker = s.tracker) : u.TrackerInv where
  period im e := absurd e (hu im)
  goodRun := ht ▸ h.goodRun
  relockRun := ht ▸ h.relockRun
  holdover im e := absurd e (hu im)
  holding im e := absurd e (hu im)
  noDeadline := ht ▸ h.noDeadline
  deadline := ht ▸ h.deadline

/-- The ranges rest on neither the detector nor the cycle number. -/
theorem State.TrackerInv.congr {s u : State} (h : s.TrackerInv) (hu : u.unit = s.unit)
    {d : Detector} {n : Word16} (ht : u.tracker = { s.tracker with detector := d, cycle := n }) :
    u.TrackerInv where
  period := by rw [hu, ht]; exact h.period
  goodRun := by rw [ht]; exact h.goodRun
  relockRun := by rw [ht]; exact h.relockRun
  holdover := by rw [hu, ht]; exact h.holdover
  holding := by rw [hu, ht]; exact h.holding
  noDeadline := by rw [ht]; exact h.noDeadline
  deadline := by rw [ht]; exact h.deadline

theorem State.TrackerInv.of_core {s u : State} (h : s.TrackerInv) (hc : CoreKept s u) :
    u.TrackerInv := h.congr hc.unit hc.tracker

/-- A part with the tracker's values after a reset, outside READY (R16). -/
theorem State.trackerInv_blank {u : State} (hu : ∀ im, u.unit ≠ .ready im)
    (ht : u.tracker = {}) : u.TrackerInv :=
  State.reset_trackerInv.unready hu ht

/-- The tracker as it starts under an image (R16). -/
theorem State.trackerInv_started {u : State} {im : Image} {high : Bool} {now : Instant}
    (hu : u.unit = .ready im) (ht : u.tracker = Tracker.started im high now) : u.TrackerInv := by
  have period (im' : Image) (e : u.unit = .ready im') : u.tracker.period = Par.pnom im' := by
    rw [hu] at e
    rw [ht, ← UnitState.ready.inj e]
    rfl
  refine ⟨fun im' e => ?_, ?_, ?_, fun im' _ => ?_, fun im' _ => ?_, fun _ => ?_, fun h => ?_⟩
  · rw [period im' e]
    omega
  all_goals rw [ht] at *
  · exact Nat.zero_le _
  · exact Nat.zero_le _
  · exact Nat.zero_le _
  · exact fun _ => Nat.zero_le _
  · rfl
  · exact absurd rfl h

/-! ## The tracker at a reference -/

/-- The period lies in the accept window around Pnom (R4). -/
def Par.admits (im : Image) (p : Nat) : Prop :=
  p ≤ Par.pnom im + Par.pnom im / 12 ∧ Par.pnom im ≤ p + Par.pnom im / 12

/-- The filter keeps the period in the window (R5). -/
theorem Par.admits_filter {im : Image} {p m : Nat} (hp : Par.admits im p)
    (hm : inWindow (Par.pnom im) m = true) : Par.admits im (periodFilter p m) := by
  obtain ⟨php, plo⟩ := hp
  obtain ⟨mhi, mlo⟩ := inWindow_iff.1 hm
  have low := min_le_periodFilter p m
  have high := periodFilter_le_max p m
  constructor <;> omega

/-- A tracker that is referred at a reference, with its counts in their ranges. -/
theorem State.trackerInv_of_refer {u : State} {im : Image} (hu : u.unit = .ready im)
    {tr : Tracker} {tref : Instant} {sync : SyncState} {p : Nat} (hp : Par.admits im p)
    (ht : u.tracker = { tr.refer tref sync p with
      goodRun := u.tracker.goodRun, relockRun := u.tracker.relockRun
      holdover := u.tracker.holdover })
    (good : u.tracker.goodRun ≤ 3) (relock : u.tracker.relockRun ≤ 1)
    (held : u.tracker.holdover ≤ Par.holdmax im + 1)
    (holding : sync = .holdover → u.tracker.holdover ≤ Par.holdmax im) : u.TrackerInv where
  period im' e := by
    rw [hu] at e
    obtain rfl := UnitState.ready.inj e
    rw [ht]
    exact hp
  goodRun := good
  relockRun := relock
  holdover im' e := by
    rw [hu] at e
    exact UnitState.ready.inj e ▸ held
  holding im' e h := by
    rw [hu] at e
    obtain rfl := UnitState.ready.inj e
    rw [ht] at h
    exact holding h
  noDeadline h := by
    rw [ht] at h ⊢
    exact if_pos h
  deadline h := by
    rw [ht] at h ⊢
    exact ⟨tref, rfl, if_neg h⟩

theorem State.handReference_tracker (s : State) (im : Image) (tref : Instant) :
    (s.handReference im tref).tracker = { s.tracker with cycle := s.tracker.cycle + 1 } := by
  rw [State.handReference_eq, (State.recheckAndSettle_modeFrame _).tracker,
    State.referenceTaken_only]

/-- Handing a reference on keeps the tracker in its ranges: the cycle number alone moves (R9). -/
theorem State.handReference_trackerInv {s : State} (h : s.TrackerInv) (im : Image)
    (tref : Instant) : (s.handReference im tref).TrackerInv :=
  h.congr (s.handReference_rest im tref).unit (s.handReference_tracker im tref)

section
variable {s : State} {im : Image}

theorem State.referAt_trackerInv (hu : s.unit = .ready im) (h : s.TrackerInv) {t0 : Instant}
    {p : Nat} (hp : Par.admits im p) {f : Tracker → Tracker}
    (good : (f s.tracker).goodRun ≤ 3) (relock : (f s.tracker).relockRun ≤ 1)
    (held : (f s.tracker).holdover = s.tracker.holdover) :
    (s.referAt im t0 p f).TrackerInv := by
  unfold State.referAt
  refine State.handReference_trackerInv ?_ im t0
  exact State.trackerInv_of_refer hu hp rfl good relock (held.trans_le (h.holdover im hu))
    fun hs => held.trans_le (h.holding im hu hs)

theorem State.lockAt_trackerInv (hu : s.unit = .ready im) {t0 : Instant} {p : Nat}
    (hp : Par.admits im p) : (s.lockAt im t0 p).TrackerInv := by
  unfold State.lockAt
  refine State.handReference_trackerInv ?_ im t0
  exact State.trackerInv_of_refer (tr := s.tracker) (sync := .locked) hu hp rfl (Nat.zero_le _)
    (Nat.zero_le _) (Nat.zero_le _) nofun

theorem State.discardCrossing_trackerInv (h : s.TrackerInv) : s.discardCrossing.TrackerInv where
  period := h.period
  goodRun := h.goodRun
  relockRun := by
    show (if s.tracker.sync = .holdover then 0 else s.tracker.relockRun) ≤ 1
    split
    · exact Nat.zero_le _
    · exact h.relockRun
  holdover := h.holdover
  holding := h.holding
  noDeadline := h.noDeadline
  deadline := h.deadline

/-- Judging a crossing keeps the tracker in its ranges (R4, R5, R10 to R13). -/
theorem State.judgeCrossing_trackerInv (hu : s.unit = .ready im) (h : s.TrackerInv)
    (t0 : Instant) : (s.judgeCrossing im t0).TrackerInv := by
  have hp : Par.admits im s.tracker.period := h.period im hu
  by_cases hm : s.tracker.misses im t0
  · rcases hs : s.tracker.sync with _ | _ | _ | _
    case locked | holdover =>
      rw [State.judgeCrossing_discard hm (by simp [hs])]
      exact State.discardCrossing_trackerInv h
    all_goals
      rw [State.judgeCrossing_restart hm (by simp [hs])]
      exact State.referAt_trackerInv hu h hp (Nat.zero_le _) h.relockRun rfl
  · unfold Tracker.misses at hm
    push Not at hm
    obtain ⟨r, hr, hw⟩ := hm
    rw [ne_eq, Bool.not_eq_false] at hw
    have hp' := Par.admits_filter hp hw
    have acquiring (hs : s.tracker.sync = .seeking ∨ s.tracker.sync = .lost) :
        (s.judgeCrossing im t0).TrackerInv := by
      by_cases hk : s.tracker.goodRun < 3
      · rw [State.judgeCrossing_goodRun hr hw hs hk]
        exact State.referAt_trackerInv hu h hp' hk h.relockRun rfl
      · rw [State.judgeCrossing_lock hr hw hs (by omega)]
        exact State.lockAt_trackerInv hu hp'
    rcases hs : s.tracker.sync with _ | _ | _ | _
    case seeking => exact acquiring (.inl hs)
    case lost => exact acquiring (.inr hs)
    case locked =>
      rw [State.judgeCrossing_locked hr hw hs]
      exact State.referAt_trackerInv hu h hp' h.goodRun h.relockRun rfl
    case holdover =>
      by_cases hk : s.tracker.relockRun = 0
      · rw [State.judgeCrossing_firstRelock hr hw hs hk]
        exact State.referAt_trackerInv hu h hp' h.goodRun (by simp [hk]) rfl
      · rw [State.judgeCrossing_relock hr hw hs (by omega)]
        exact State.lockAt_trackerInv hu hp'

/-- A synthetic reference keeps the tracker in its ranges (R6, R11 to R13). -/
theorem State.synthetic_trackerInv (hu : s.unit = .ready im) (hv : imageValid im = true)
    (h : s.TrackerInv) (z : Instant) : (s.synthetic im z).TrackerInv := by
  have hp : Par.admits im s.tracker.period := h.period im hu
  have hmax := imageValid_holdmax hv
  rcases hs : s.tracker.sync with _ | _ | _ | _
  case seeking =>
    rw [show s.synthetic im z = s by simp [State.synthetic, hs]]
    exact h
  case locked =>
    rw [State.synthetic_locked hs]
    exact State.trackerInv_of_refer (im := im) (tr := s.tracker) hu hp rfl h.goodRun
      (Nat.zero_le _) (Nat.le_add_left 1 _) fun _ => hmax
  case lost =>
    rw [State.synthetic_lost hs]
    exact State.trackerInv_of_refer (im := im) (tr := s.tracker) hu hp rfl (Nat.zero_le _)
      h.relockRun (h.holdover im hu) nofun
  case holdover =>
    have held := h.holding im hu hs
    by_cases hn : min 16 (s.tracker.holdover + 1) ≤ Par.holdmax im
    · rw [State.synthetic_held hs hn]
      exact State.trackerInv_of_refer (im := im) (tr := s.tracker) hu hp rfl h.goodRun
        (Nat.zero_le _) (Nat.le_succ_of_le hn) fun _ => hn
    · rw [State.synthetic_loses hs (by omega)]
      refine State.trackerInv_of_refer (im := im) (tr := s.tracker) hu hp rfl (Nat.zero_le _)
        (Nat.zero_le _) ?_ nofun
      show min 16 (s.tracker.holdover + 1) ≤ _
      omega

end

/-! ## Every command keeps it -/

theorem State.applyStaging_started (s : State) :
    s.applyStaging.unit = .ready s.staging
      ∧ s.applyStaging.tracker = Tracker.started s.staging s.refHigh s.timebase := by
  unfold State.applyStaging
  rw [State.startBlocks_frame]
  simp only
  split
  · exact ⟨rfl, rfl⟩
  · rw [State.beginService_frame]
    exact ⟨rfl, rfl⟩

theorem Served.trackerInv {s u : State} (hs : Served s u) (h : s.TrackerInv) : u.TrackerInv := by
  cases hs with
  | kept hc => exact h.of_core hc
  | applied _ _ hc =>
    obtain ⟨unit, tracker⟩ := s.applyStaging_started
    exact (State.trackerInv_started unit tracker).of_core hc
  | reset _ hu =>
    subst hu
    exact State.trackerInv_blank nofun rfl

theorem Effect.trackerInv {i : Instr} {s u : State} (he : Effect i s u)
    (hv : ∀ im, s.unit = .ready im → imageValid im = true) (h : s.TrackerInv) : u.TrackerInv := by
  cases he with
  | idle hc =>
    obtain ⟨unit, tracker, -⟩ := s.linksAfter_keeps i
    exact (h.congr unit tracker).of_core hc
  | @served t _ hs =>
    obtain ⟨unit, tracker, -⟩ := (s.atInstant t).linksAfter_keeps i
    exact hs.trackerInv (h.congr unit tracker)
  | unready _ hu ht =>
    rcases ht with ht | ht
    · exact h.unready hu ht
    · exact State.trackerInv_blank hu ht
  | starts _ _ hu ht => exact State.trackerInv_started hu ht
  | detects hu ht _ => exact h.congr hu ht
  | @crossing t t0 im hs _ hu =>
    rw [hu]
    exact State.judgeCrossing_trackerInv
      (s := (s.atInstant t).setDetector (.disarmed none) true) hs (h.congr rfl rfl) t0
  | @deadline t r im hs _ _ hu =>
    rw [hu]
    refine State.handReference_trackerInv ?_ im _
    exact State.synthetic_trackerInv (s := s.atInstant t) hs (hv im hs) (h.congr rfl rfl) _

/-- Settles O56, by the effects of a command. -/
theorem stepsKeepTheTrackerInRange : Obligations.StepsKeepTheTrackerInRange := by
  intro s u hU h hstep
  unfold step at hstep
  split at hstep
  · cases hstep
    unfold State.tick
    split
    · exact h
    · exact h.congr rfl rfl
  · rename_i c rest _
    have popped : ({ s with pending := rest } : State).TrackerInv := h.congr rfl rfl
    exact (exec_effect hstep).trackerInv hU.valid popped

end Sys2Proof.Machine
end

section
/-! PROOF. The entry to BYPASS: the legs, the four messages in whatever order, the causes their
closings hand (R34, R132, R133, R134, R137). -/

namespace Sys2Proof.Machine

open Sys2Proof

/-! ## The legs and the order of their messages -/

/-- The legs chosen from the last upper valves of the two bridges (R133). -/
def legsOf (y d : Option Upper) : Legs := { y := legOf y, d := legOf d }

/-- Of the leg valves the upper one of the Y bridge alone is noted for it (R132, R133). -/
theorem upperOfY_legsOf (y d : Option Upper) :
    (∀ j ∈ (legsOf y d).valves, upperOfY j = none ∨ upperOfY j = some (y.getD .one))
      ∧ ∃ j ∈ (legsOf y d).valves, upperOfY j = some (y.getD .one) := by
  rcases y with _ | _ | _ | _ <;> rcases d with _ | _ | _ | _ <;> decide

theorem upperOfD_legsOf (y d : Option Upper) :
    (∀ j ∈ (legsOf y d).valves, upperOfD j = none ∨ upperOfD j = some (d.getD .one))
      ∧ ∃ j ∈ (legsOf y d).valves, upperOfD j = some (d.getD .one) := by
  rcases y with _ | _ | _ | _ <;> rcases d with _ | _ | _ | _ <;> decide

/-- The four leg valves are four. -/
theorem Legs.valves_nodup (l : Legs) : l.valves.Nodup := by
  rcases l with ⟨_ | _ | _, _ | _ | _⟩ <;> decide

/-- Whatever the choice, each leg valve gets one message. -/
theorem legOrder_perm (k : Nat) (l : Legs) : (legOrder k l.valves).Perm l.valves := by
  unfold Legs.valves legOrder
  generalize l.y.yValves.1 = a, l.y.yValves.2 = b, l.d.dValves.1 = c, l.d.dValves.2 = d
  have two := List.perm_insertIdx b [a] (i := k % 2) (by simp; omega)
  have three := List.perm_insertIdx c ([a].insertIdx (k % 2) b) (i := k / 2 % 3)
    (by simp [two.length_eq]; omega)
  have four := List.perm_insertIdx d (([a].insertIdx (k % 2) b).insertIdx (k / 2 % 3) c)
    (i := k / 6 % 4) (by simp [three.length_eq, two.length_eq]; omega)
  have joined : (d :: c :: b :: [a]).Perm [a, b, c, d] := (List.reverse_perm [a, b, c, d])
  exact (four.trans ((three.trans (two.cons c)).cons d)).trans joined

/-- The last upper valve after messages of which some go to the one upper valve `x`. -/
theorem foldl_or_upper {f : Valve → Option Upper} {x : Upper} (js : List Valve)
    (only : ∀ j ∈ js, f j = none ∨ f j = some x) (init : Option Upper)
    (some : init = some x ∨ ∃ j ∈ js, f j = some x) :
    js.foldl (fun last j => (f j).or last) init = .some x := by
  induction js generalizing init with
  | nil => simpa using some
  | cons j js ih =>
    refine ih (fun i hi => only i (by simp [hi])) _ ?_
    rcases only j (by simp) with hj | hj
    · simpa [hj] using some
    · exact .inl (by simp [hj])

/-! ## Several messages outside RUNNING -/

theorem State.choose_eq (s : State) : s.choose.2 = { s with choices := s.choices.tail } := by
  obtain ⟨⟩ := s
  unfold State.choose
  split
  · rename_i h; cases h; rfl
  · rename_i h; cases h; rfl

theorem State.noteUpper_group {s : State} (h : s.group.mode ≠ .blocked) (j : Valve) :
    (s.noteUpper j).group = { s.group with
      lastUpperY := (upperOfY j).or s.group.lastUpperY
      lastUpperD := (upperOfD j).or s.group.lastUpperD } := by
  unfold State.noteUpper
  rw [if_neg h]

/-- A valve's record after one BYPASS message at `t` (R38, R88). -/
structure BypassFired (t : Instant) (v w : ValveRecord) : Prop where
  lastFire : w.monitor.lastFire = some t
  lastSend : w.channel.lastSend = some t
  phase : w.monitor.phase = .conducting
  counts : ∀ k, w.firingCount k
    = if k = .bypass then min 65535 (v.firingCount .bypass + 1) else v.firingCount k
  schedule : w.schedule = v.schedule

/-- What BYPASS messages to the valves `js`, one each, do outside RUNNING and BLOCKED. -/
structure LegsFired (js : List Valve) (s u : State) : Prop where
  sent : u.sent = (js.map fun j => s.fireSent s.timebase j).reverse ++ s.sent
  guard : u.guard = s.guard
  tracker : u.tracker = s.tracker
  group : u.group = { s.group with
    lastUpperY := js.foldl (fun last j => (upperOfY j).or last) s.group.lastUpperY
    lastUpperD := js.foldl (fun last j => (upperOfD j).or last) s.group.lastUpperD }
  fired : ∀ j ∈ js, BypassFired s.timebase (s.valve j) (u.valve j)
  others : ∀ j, j ∉ js → u.valve j = s.valve j
  words : ∀ l src, (∀ j ∈ js, src ≠ .valve j) → u.word l src = s.word l src

theorem State.fire_bypass {s : State} (hr : s.group.mode ≠ .running)
    (hb : s.group.mode ≠ .blocked) (j : Valve) : LegsFired [j] s (s.fire .bypass j) := by
  obtain ⟨sent, guard, tracker, -, group, others, phase, lastFire, channel, schedule, words, -⟩ :=
    s.fireOwn_frame .bypass j
  obtain ⟨counts, -⟩ := s.fireOwn_valve .bypass j
  rw [State.fire_idle hr]
  refine ⟨sent, guard, tracker, group.trans (State.noteUpper_group hb j), fun i hi => ?_,
    fun i hi => others i (by simpa using hi), fun l src h => words l src (h j (by simp))⟩
  obtain rfl : i = j := by simpa using hi
  exact ⟨lastFire, by rw [channel], phase, counts, schedule⟩

theorem foldl_fire_bypass (js : List Valve) (hn : js.Nodup) {s : State}
    (hr : s.group.mode ≠ .running) (hb : s.group.mode ≠ .blocked) :
    LegsFired js s (js.foldl (fun w j => w.fire .bypass j) s) := by
  induction js generalizing s with
  | nil => exact ⟨rfl, rfl, rfl, rfl, nofun, fun _ _ => rfl, fun _ _ _ => rfl⟩
  | cons j js ih =>
    have first := State.fire_bypass hr hb j
    have mode : (s.fire .bypass j).group.mode = s.group.mode := by rw [first.group]
    have rest := ih hn.of_cons (mode ▸ hr) (mode ▸ hb)
    have time : (s.fire .bypass j).timebase = s.timebase := (s.fire_rest .bypass j).timebase
    have kept (i : Valve) (hi : i ∈ js) : (s.fire .bypass j).valve i = s.valve i :=
      first.others i fun h => hn.notMem (by simpa [List.mem_singleton.1 h] using hi)
    refine ⟨?_, rest.guard.trans first.guard, rest.tracker.trans first.tracker, ?_,
      fun i hi => ?_, fun i hi => ?_, fun l src h => ?_⟩
    · have later : js.map (fun i => (s.fire .bypass j).fireSent (s.fire .bypass j).timebase i)
          = js.map fun i => s.fireSent s.timebase i :=
        List.map_congr_left fun i hi => by unfold State.fireSent; rw [kept i hi, time]
      rw [List.foldl_cons, rest.sent, later, first.sent]
      simp
    · rw [List.foldl_cons, rest.group, first.group]
      rfl
    · rcases List.mem_cons.1 hi with rfl | hi
      · rw [List.foldl_cons, rest.others i hn.notMem]
        exact first.fired i (by simp)
      · have h := rest.fired i hi
        rwa [kept i hi, time] at h
    · rw [List.mem_cons, not_or] at hi
      rw [List.foldl_cons, rest.others i hi.2, first.others i (by simpa using hi.1)]
    · rw [List.foldl_cons, rest.words l src fun i hi => h i (by simp [hi]),
        first.words l src fun i hi => h i (by simp [List.mem_singleton.1 hi])]

/-! ## Causes that ask for no action -/

/-- Nothing but the trip causes and their word moves. -/
structure TripsAdded (s u : State) : Prop where
  eq : u = { s with
    group := { s.group with trips := u.group.trips }, linkA := u.linkA, linkB := u.linkB }
  words : WordsKept s u .trip
  same : u.group.trips = s.group.trips → u = s
  has : ∀ c, s.group.trips.has c = true → u.group.trips.has c = true

theorem State.addTrip_added (s : State) (c : TripCause) : TripsAdded s (s.addTrip c) := by
  unfold State.addTrip
  split
  · exact ⟨rfl, fun _ _ _ => rfl, fun _ => rfl, fun _ => id⟩
  · rename_i hc
    refine ⟨rfl, fun l src hs => ?_, fun h => ?_, fun c' h => ?_⟩
    · rw [State.post_word, if_neg hs]
      cases l <;> rfl
    · have had := s.group.trips.has_add c c
      rw [show s.group.trips.add c = s.group.trips from h] at had
      exact absurd (by simpa using had) hc
    · exact (s.group.trips.has_add c c').trans (by simp [h])

theorem foldl_addTrip_added (cs : List TripCause) (s : State) :
    TripsAdded s (cs.foldl State.addTrip s) := by
  induction cs generalizing s with
  | nil => exact ⟨rfl, fun _ _ _ => rfl, fun _ => rfl, fun _ => id⟩
  | cons c cs ih =>
    have first := s.addTrip_added c
    have rest := ih (s.addTrip c)
    refine ⟨?_, fun l src hs => (rest.words l src hs).trans (first.words l src hs), fun h => ?_,
      fun c' h => rest.has c' (first.has c' h)⟩
    · rw [List.foldl_cons, rest.eq, first.eq]
    · by_cases hc : s.group.trips.has c = true
      · have still : s.addTrip c = s := if_pos hc
        rw [List.foldl_cons, still] at h ⊢
        exact (ih s).same h
      · have had := rest.has c (by simp [s.addTrip_has])
        rw [List.foldl_cons] at h
        exact absurd (h ▸ had) hc

/-! ## The entry -/

theorem State.choose_fst (s : State) : s.choose.1 = s.choices.headD 0 := by
  unfold State.choose
  split <;> simp_all

theorem State.fireLegs_some {s : State} {l : Legs} (h : s.group.legs = some l) :
    s.fireLegs = (legOrder (s.choices.headD 0) l.valves).foldl (fun w j => w.fire .bypass j)
      { s with choices := s.choices.tail } := by
  rw [← State.choose_fst, ← State.choose_eq]
  unfold State.fireLegs
  rw [h]

theorem State.leaveMode_eq (s : State) : s.leaveMode = { s with valves := s.leaveMode.valves } := by
  unfold State.leaveMode
  split <;> rfl

/-- Every schedule cancelled when RUNNING is left (R34). -/
theorem State.leaveMode_valves (s : State) :
    s.leaveMode.valves = if s.group.mode = .running then Vector.ofFn fun j =>
        { s.valve j with schedule := { (s.valve j).schedule with
          fireAt := none, expiry := none, deadline := none } }
      else s.valves := by
  unfold State.leaveMode
  split <;> rfl

/-- A record with its schedule cancelled (R34). -/
def ValveRecord.cancelled (v : ValveRecord) : ValveRecord :=
  { v with schedule := { v.schedule with fireAt := none, expiry := none, deadline := none } }

theorem State.leaveMode_valve (s : State) (j : Valve) : s.leaveMode.valve j
    = if s.group.mode = .running then (s.valve j).cancelled else s.valve j := by
  unfold State.leaveMode
  split
  · exact State.mapValves_valve ..
  · rfl

/-- The legs that an entry to BYPASS chooses (R133). -/
def State.chosenLegs (s : State) : Legs := legsOf s.group.lastUpperY s.group.lastUpperD

/-- The order that the next choice gives the four messages (R134). -/
def State.bypassOrder (s : State) : List Valve :=
  legOrder (s.choices.headD 0) s.chosenLegs.valves

/-- The state at an entry to BYPASS before its four messages. -/
def State.bypassEntered (s : State) : State :=
  { s with
    valves := s.leaveMode.valves, choices := s.choices.tail
    group := { s.group with
      mode := .bypass, origin := none, legs := some s.chosenLegs, gatingExpiry := none } }

/-- The state at an entry to BYPASS after its four messages. -/
def State.bypassFired (s : State) : State :=
  s.bypassOrder.foldl (fun w j => w.fire .bypass j) s.bypassEntered

/-- The gating begins: its expiry is set, and BYPASS is posted (R134). -/
def State.beginGating (s : State) : State :=
  ({ s with group := { s.group with
    gatingExpiry := some (after s.timebase s.gatingInterval) } } : State).post .mode modeBypass

theorem State.bypassOrder_perm (s : State) : s.bypassOrder.Perm s.chosenLegs.valves :=
  legOrder_perm _ _

theorem State.bypassOrder_nodup (s : State) : s.bypassOrder.Nodup :=
  s.bypassOrder_perm.nodup_iff.2 (Legs.valves_nodup _)

theorem State.mem_bypassOrder {s : State} {j : Valve} :
    j ∈ s.bypassOrder ↔ j ∈ s.chosenLegs.valves := s.bypassOrder_perm.mem_iff

theorem State.bypassEntered_valve (s : State) (j : Valve) :
    s.bypassEntered.valve j = s.leaveMode.valve j := rfl

theorem State.bypassEntered_rest (s : State) : RestKept s s.bypassEntered :=
  ⟨rfl, fun l => by cases l <;> rfl⟩

theorem State.bypassFired_legs (s : State) :
    LegsFired s.bypassOrder s.bypassEntered s.bypassFired :=
  foldl_fire_bypass _ s.bypassOrder_nodup nofun nofun

theorem State.bypassFired_rest (s : State) : RestKept s s.bypassFired :=
  s.bypassEntered_rest.trans (foldl_rest (fun w j => State.fire .bypass j w)
    (fun w j => w.fire_rest .bypass j) _ _)

theorem State.enterBypass_eq (s : State) :
    s.enterBypass = s.bypassFired.beginGating.absorbHanded := by
  have fired : State.fireLegs { s.leaveMode with group := { s.leaveMode.group with
      mode := .bypass, origin := none, legs := some
        { y := legOf s.leaveMode.group.lastUpperY, d := legOf s.leaveMode.group.lastUpperD }
      gatingExpiry := none } } = s.bypassFired := by
    rw [State.fireLegs_some rfl, State.leaveMode_eq]
    rfl
  rw [← fired]
  rfl

theorem State.bypassFired_expiry (s : State) :
    after s.bypassFired.timebase s.bypassFired.gatingInterval
      = after s.timebase s.gatingInterval := by
  unfold State.gatingInterval
  rw [s.bypassFired_rest.timebase, s.bypassFired_legs.tracker]
  rfl

theorem State.bypassFired_group (s : State) : s.bypassFired.group = { s.group with
    mode := .bypass, origin := none, legs := some s.chosenLegs, gatingExpiry := none
    lastUpperY := some (s.group.lastUpperY.getD .one)
    lastUpperD := some (s.group.lastUpperD.getD .one) } := by
  obtain ⟨onlyY, y, hy, upperY⟩ := upperOfY_legsOf s.group.lastUpperY s.group.lastUpperD
  obtain ⟨onlyD, d, hd, upperD⟩ := upperOfD_legsOf s.group.lastUpperY s.group.lastUpperD
  rw [s.bypassFired_legs.group,
    foldl_or_upper s.bypassOrder (fun j hj => onlyY j (State.mem_bypassOrder.1 hj)) _
      (.inr ⟨y, State.mem_bypassOrder.2 hy, upperY⟩),
    foldl_or_upper s.bypassOrder (fun j hj => onlyD j (State.mem_bypassOrder.1 hj)) _
      (.inr ⟨d, State.mem_bypassOrder.2 hd, upperD⟩)]
  rfl

/-- Of the causes that the closings at an entry to BYPASS hand, the trip causes and their word alone
move (R137). -/
theorem State.enterBypass_added (s : State) :
    TripsAdded { s.bypassFired.beginGating with handed := [] } s.enterBypass := by
  rw [State.enterBypass_eq]
  exact foldl_addTrip_added _ _

theorem State.enterBypass_group (s : State) : s.enterBypass.group = { s.group with
    mode := .bypass, origin := none, legs := some s.chosenLegs
    gatingExpiry := some (after s.timebase s.gatingInterval)
    lastUpperY := some (s.group.lastUpperY.getD .one)
    lastUpperD := some (s.group.lastUpperD.getD .one)
    trips := s.enterBypass.group.trips } := by
  refine (congrArg State.group s.enterBypass_added.eq).trans ?_
  rw [← s.bypassFired_expiry]
  show ({ s.bypassFired.group with gatingExpiry := _, trips := _ } : Group) = _
  rw [s.bypassFired_group]
  rfl

theorem State.enterBypass_valve (s : State) (j : Valve) :
    s.enterBypass.valve j = s.bypassFired.valve j := by
  rw [s.enterBypass_added.eq]
  rfl

/-- A leg valve after the entry to BYPASS. -/
theorem State.enterBypass_leg (s : State) {j : Valve} (h : j ∈ s.chosenLegs.valves) :
    BypassFired s.timebase (s.leaveMode.valve j) (s.enterBypass.valve j) := by
  rw [s.enterBypass_valve]
  exact s.bypassFired_legs.fired j (State.mem_bypassOrder.2 h)

/-- Every other valve after the entry to BYPASS. -/
theorem State.enterBypass_other (s : State) {j : Valve} (h : j ∉ s.chosenLegs.valves) :
    s.enterBypass.valve j = s.leaveMode.valve j := by
  rw [s.enterBypass_valve]
  exact s.bypassFired_legs.others j (mt State.mem_bypassOrder.1 h)

theorem State.enterBypass_schedule (s : State) (j : Valve) :
    (s.enterBypass.valve j).schedule = (s.leaveMode.valve j).schedule := by
  by_cases h : j ∈ s.chosenLegs.valves
  · exact (s.enterBypass_leg h).schedule
  · rw [s.enterBypass_other h]

theorem State.enterBypass_guard (s : State) : s.enterBypass.guard = s.guard := by
  rw [s.enterBypass_added.eq]
  exact s.bypassFired_legs.guard

theorem State.enterBypass_tracker (s : State) : s.enterBypass.tracker = s.tracker := by
  rw [s.enterBypass_added.eq]
  exact s.bypassFired_legs.tracker

/-- The messages carry the masks as the levels stand before the entry: a closing clears no record of
a valve still to be fired. -/
theorem State.enterBypass_sent (s : State) : s.enterBypass.sent
    = (s.bypassOrder.map fun j => s.fireSent s.timebase j).reverse ++ s.sent := by
  have masks (j : Valve) : s.bypassEntered.fireSent s.bypassEntered.timebase j
      = s.fireSent s.timebase j := by
    unfold State.fireSent
    rw [s.bypassEntered_valve, s.leaveMode_valve]
    split <;> rfl
  rw [s.enterBypass_added.eq]
  refine s.bypassFired_legs.sent.trans ?_
  rw [List.map_congr_left fun j _ => masks j]
  rfl

/-- The words after the causes alone: those of no leg valve and not TRIP. -/
theorem State.beginGating_word (s : State) (l : Link) (src : Source) :
    s.beginGating.word l src
      = if src = .mode then s.word l .mode ||| modeBypass else s.word l src := by
  unfold State.beginGating
  rw [State.post_word]
  cases l <;> rfl

theorem State.bypassFired_word (s : State) (l : Link) {src : Source}
    (h : ∀ j ∈ s.chosenLegs.valves, src ≠ .valve j) : s.bypassFired.word l src = s.word l src := by
  refine (s.bypassFired_legs.words l src fun j hj => h j (State.mem_bypassOrder.1 hj)).trans ?_
  cases l <;> rfl

theorem State.enterBypass_word (s : State) (l : Link) {src : Source} (ht : src ≠ .trip)
    (h : ∀ j ∈ s.chosenLegs.valves, src ≠ .valve j) : s.enterBypass.word l src
      = if src = .mode then s.word l .mode ||| modeBypass else s.word l src := by
  rw [s.enterBypass_added.words l src ht, ← s.bypassFired_word l h,
    ← s.bypassFired_word (src := .mode) l (by simp), ← s.bypassFired.beginGating_word l src]
  cases l <;> rfl

theorem State.enterBypass_tripWord {s : State} (h : s.enterBypass.group.trips = s.group.trips)
    (l : Link) : s.enterBypass.word l .trip = s.word l .trip := by
  have group : s.bypassFired.group.trips = s.group.trips := by rw [s.bypassFired_group]
  have gated := s.bypassFired.beginGating_word l .trip
  rw [if_neg (by simp), s.bypassFired_word l (by simp)] at gated
  rw [s.enterBypass_added.same (h.trans group.symm), ← gated]
  cases l <;> rfl

theorem ValveRecord.cancelled_count (v : ValveRecord) (k : FireKind) :
    v.cancelled.firingCount k = v.firingCount k := by cases k <;> rfl

theorem State.leaveMode_count (s : State) (j : Valve) (k : FireKind) :
    (s.leaveMode.valve j).firingCount k = (s.valve j).firingCount k := by
  rw [s.leaveMode_valve]
  split
  · exact ValveRecord.cancelled_count ..
  · rfl

/-- Each leg valve is fired BYPASS at the entry (R134). -/
theorem State.enterBypass_fired (s : State) {j : Valve} (h : j ∈ s.chosenLegs.valves) :
    Fired s s.enterBypass s.timebase .bypass j := by
  have leg := s.enterBypass_leg h
  have message : s.fireSent s.timebase j
      ∈ (s.bypassOrder.map fun j => s.fireSent s.timebase j).reverse :=
    List.mem_reverse.2 (List.mem_map.2 ⟨j, State.mem_bypassOrder.2 h, rfl⟩)
  obtain ⟨later, earlier, parts⟩ := List.append_of_mem message
  refine ⟨⟨later, earlier, ?_⟩, leg.lastFire, leg.lastSend, leg.phase, ?_⟩
  · rw [s.enterBypass_sent, parts, List.append_assoc, List.cons_append]
  · rw [leg.counts, if_pos rfl, s.leaveMode_count]

/-- Settles O35: the entry fires the chosen legs from the state in which the schedules are cancelled,
and then nothing but the gating expiry, BYPASS and the trip causes moves. -/
theorem bypassFiresItsLegs : Obligations.BypassFiresItsLegs := by
  intro s u leg y d legs cancelled expiry
  have valves : s.chosenLegs.valves = legs := by
    simp only [legs, y, d, leg, State.chosenLegs]
    rcases s.group.lastUpperY with _ | _ | _ | _ <;>
      rcases s.group.lastUpperD with _ | _ | _ | _ <;> rfl
  have entered : s.leaveMode.valves = cancelled := s.leaveMode_valves
  refine ⟨⟨s.chosenLegs, by rw [State.enterBypass_group], valves, s.enterBypass_group,
    s.bypassOrder, valves ▸ s.bypassOrder_perm, s.enterBypass_sent, ?_⟩, fun j hj => ?_,
    fun j hj => ?_, fun hm j => ?_, fun l => ?_, fun h => State.enterBypass_tripWord h,
    fun l src hmode htrip hj => ?_, s.enterBypass_guard, s.enterBypass_tracker, s.enterBypass_rest⟩
  · intro fired posted
    have hfired : s.bypassFired = fired := by
      unfold State.bypassFired State.bypassEntered
      rw [entered]
    have hposted : s.bypassFired.beginGating = posted := by
      unfold State.beginGating
      rw [s.bypassFired_expiry, hfired]
      rfl
    rw [← hposted, ← hfired]
    exact s.enterBypass_eq
  · exact s.enterBypass_fired (valves ▸ hj)
  · rw [s.enterBypass_other (valves ▸ hj), ← entered]
    rfl
  · rw [State.nothingUnissued, s.enterBypass_schedule, s.leaveMode_valve, if_pos hm]
    exact ⟨rfl, rfl, rfl⟩
  · exact (s.enterBypass_word l (by simp) (by simp)).trans (if_pos rfl)
  · rw [s.enterBypass_word l htrip (valves ▸ hj), if_neg hmode]

end Sys2Proof.Machine
end

section
/-! PROOF. The invariants of the modes, the guard and the lines part by part (R22, R25, R30, R34, R44,
R109, R131, R151, R159), and that every shared operation keeps each part. -/

namespace Sys2Proof.Machine

open Sys2Proof

/-! ## The invariants part by part -/

/-- The parts of the Group Mode Controller are present in their modes (R126, R132, R134, R135). -/
structure Group.Fits (g : Group) : Prop where
  origin : g.origin.isSome ↔ g.mode = .deblocking
  legs : g.legs.isSome ↔ (g.mode = .bypass ∨ g.origin = some .fromBypass)
  gating : g.gatingExpiry.isSome ↔ g.legs.isSome
  uppers : g.mode = .blocked → g.lastUpperY = none ∧ g.lastUpperD = none

/-- The schedule of a valve is one of the mode `mode` (R22, R30, R34). -/
structure Schedule.Fits (mode : Mode) (c : Schedule) : Prop where
  zeros : c.zeros.length ≤ 2
  expiry : c.expiry.isSome → c.fireAt.isSome
  fireAt : c.fireAt.isSome → c.deadline.isSome
  cancelled : mode ≠ .running → c.deadline = none

/-- The guard in its ranges (R109, R112). -/
structure Guard.Ranged (unit : UnitState) (g : Guard) : Prop where
  advance : ∀ im, unit = .ready im → g.advance ≤ Par.advmax im
  failCycles : g.failCycles ≤ 255
  lowest : gammaInRange g.lowest
  reportedLow : gammaInRange g.reportedLow

/-- A latched angle in the range of a valid image (R25). -/
def angleInRange (unit : UnitState) (a : Nat) : Prop :=
  ∀ im, unit = .ready im → imageValid im = true → a = 0 ∨ (Par.amin im ≤ a ∧ a ≤ Par.amax im)

/-- A channel in its ranges (R43, R44, R51). -/
structure Channel.Ranged (c : Channel) : Prop where
  up : c.up = true → c.run = 0 ∧ c.lastMessage.isSome
  run : c.run ≤ 7
  counts : c.errors ≤ 65535 ∧ c.noiseCycle ≤ 255 ∧ c.noiseTotal ≤ 65535

/-- The guard's part of a valve, its latched angle and its channel in their ranges. -/
def ValveRecord.Ranged (unit : UnitState) (v : ValveRecord) : Prop :=
  gammaInRange v.lastGamma ∧ v.commFailures ≤ 65535 ∧ angleInRange unit v.schedule.alphaEff
    ∧ v.channel.Ranged

/-- A link in its ranges (R142, R145, R151, R159). -/
structure LinkState.Ranged (k : LinkState) : Prop where
  waiting : k.waiting.length ≤ 2
  onLine : k.onLine = none → k.waiting = []
  heard : k.silent = false → k.lastValid.isSome
  errors : k.errors ≤ 65535
  foreign : k.foreign ≤ 65535
  cursor : 1 ≤ k.cursor.position ∧ k.cursor.position ≤ 80

theorem State.modeInv_iff (s : State) :
    s.ModeInv ↔ s.group.Fits ∧ ∀ j, (s.valve j).schedule.Fits s.group.mode :=
  ⟨fun h => ⟨⟨h.origin, h.legs, h.gating, h.uppers⟩,
      fun j => ⟨h.zeros j, h.expiry j, h.fireAt j, fun hm => h.cancelled hm j⟩⟩,
    fun ⟨hg, hv⟩ => ⟨hg.origin, hg.legs, hg.gating, hg.uppers, fun j => (hv j).zeros,
      fun j => (hv j).expiry, fun j => (hv j).fireAt, fun hm j => (hv j).cancelled hm⟩⟩

/-- Under a valid image the guard and the lines are in their ranges part by part. -/
theorem State.rangesInv_iff {s : State} (hv : ∀ im, s.unit = .ready im → imageValid im = true) :
    (s.GuardInv ∧ s.LineInv) ↔ s.guard.Ranged s.unit ∧ (∀ j, (s.valve j).Ranged s.unit)
      ∧ ∀ l, (s.link l).Ranged := by
  constructor
  · rintro ⟨g, k⟩
    exact ⟨⟨g.advance, g.failCycles, g.lowest, g.reportedLow⟩,
      fun j => ⟨g.lastGamma j, g.commFailures j, fun im hu _ => g.alphaEff im hu j,
        k.up j, k.run j, k.counts j⟩,
      fun l => ⟨k.waiting l, k.onLine l, k.heard l, k.errors l, k.foreign l, k.cursor l⟩⟩
  · rintro ⟨g, v, k⟩
    exact ⟨⟨g.advance, g.failCycles, g.lowest, g.reportedLow, fun j => (v j).1, fun j => (v j).2.1,
        fun im hu j => (v j).2.2.1 im hu (hv im hu)⟩,
      ⟨fun l => (k l).waiting, fun l => (k l).onLine, fun l => (k l).heard, fun l => (k l).errors,
        fun l => (k l).foreign, fun l => (k l).cursor, fun j => (v j).2.2.2.up,
        fun j => (v j).2.2.2.run, fun j => (v j).2.2.2.counts⟩⟩

/-! ## Keeping every part -/

/-- Each part of the invariants that holds of `s` holds of `u`. -/
structure Keeps (s u : State) : Prop where
  group : s.group.Fits → u.group.Fits
  guard : s.guard.Ranged s.unit → u.guard.Ranged u.unit
  schedules : ∀ j, (s.valve j).schedule.Fits s.group.mode →
    (u.valve j).schedule.Fits u.group.mode
  valves : ∀ j, (s.valve j).Ranged s.unit → (u.valve j).Ranged u.unit
  links : ∀ l, (s.link l).Ranged → (u.link l).Ranged

namespace Keeps

theorem refl (s : State) : Keeps s s := ⟨id, id, fun _ => id, fun _ => id, fun _ => id⟩

theorem trans {s u w : State} (h : Keeps s u) (h' : Keeps u w) : Keeps s w where
  group := h'.group ∘ h.group
  guard := h'.guard ∘ h.guard
  schedules j := h'.schedules j ∘ h.schedules j
  valves j := h'.valves j ∘ h.valves j
  links l := h'.links l ∘ h.links l

/-- A fold keeps the parts when each of its steps does. -/
theorem foldl {α : Type} {f : State → α → State} (hf : ∀ s a, Keeps s (f s a)) (as : List α)
    (s : State) : Keeps s (as.foldl f s) := by
  induction as generalizing s with
  | nil => exact refl s
  | cons a as ih => exact (hf s a).trans (ih _)

/-- What moves none of the parts. -/
theorem of_same {s u : State} (unit : u.unit = s.unit) (valves : u.valves = s.valves)
    (guard : u.guard = s.guard) (group : u.group = s.group) (linkA : u.linkA = s.linkA)
    (linkB : u.linkB = s.linkB) : Keeps s u := by
  have valve (j : Valve) : u.valve j = s.valve j := by unfold State.valve; rw [valves]
  have link (l : Link) : u.link l = s.link l := by cases l <;> assumption
  exact ⟨by rw [group]; exact id, by rw [guard, unit]; exact id,
    fun j => by rw [valve, group]; exact id, fun j => by rw [valve, unit]; exact id,
    fun l => by rw [link]; exact id⟩

/-- An operation on valves, guard and group keeps the links. -/
theorem of_rest {s u : State} (h : RestKept s u) (group : s.group.Fits → u.group.Fits)
    (guard : s.guard.Ranged s.unit → u.guard.Ranged s.unit)
    (schedules : ∀ j, (s.valve j).schedule.Fits s.group.mode →
      (u.valve j).schedule.Fits u.group.mode)
    (valves : ∀ j, (s.valve j).Ranged s.unit → (u.valve j).Ranged s.unit) : Keeps s u where
  group := group
  guard := by rw [h.unit]; exact guard
  schedules := schedules
  valves := by rw [h.unit]; exact valves
  links l k := by
    rw [h.2 l]
    exact ⟨k.waiting, k.onLine, k.heard, k.errors, k.foreign, k.cursor⟩

/-- An operation on one valve. -/
theorem of_own {s u : State} {j : Valve} (h : RestKept s u) (group : u.group = s.group)
    (guard : u.guard = s.guard) (others : ∀ i, i ≠ j → u.valve i = s.valve i)
    (schedule : (s.valve j).schedule.Fits s.group.mode → (u.valve j).schedule.Fits s.group.mode)
    (valve : (s.valve j).Ranged s.unit → (u.valve j).Ranged s.unit) : Keeps s u := by
  refine of_rest h (by rw [group]; exact id) (by rw [guard]; exact id) (fun i => ?_) fun i => ?_
  · rw [group]
    by_cases hi : i = j
    · subst hi; exact schedule
    · rw [others i hi]; exact id
  · by_cases hi : i = j
    · subst hi; exact valve
    · rw [others i hi]; exact id

end Keeps

/-! ## Single updates -/

theorem State.atInstant_keeps (s : State) (t : Instant) : Keeps s (s.atInstant t) :=
  .of_same rfl rfl rfl rfl rfl rfl

theorem State.post_keeps (s : State) (src : Source) (bits : BitVec 12) :
    Keeps s (s.post src bits) :=
  .of_rest (s.post_rest ..) id id (fun _ => id) fun _ => id

theorem State.hand_keeps (s : State) (c : TripCause) : Keeps s (s.hand c) :=
  .of_same rfl rfl rfl rfl rfl rfl

theorem State.choose_keeps (s : State) : Keeps s s.choose.2 :=
  .of_same (by simp) (by simp) (by simp) (by simp) (by simp) (by simp)

theorem State.setValve_keeps (s : State) (j : Valve) {v : ValveRecord}
    (schedule : (s.valve j).schedule.Fits s.group.mode → v.schedule.Fits s.group.mode)
    (valve : (s.valve j).Ranged s.unit → v.Ranged s.unit) : Keeps s (s.setValve j v) :=
  .of_own (j := j) (s.setValve_rest ..) rfl rfl (fun _ hi => s.setValve_other _ hi)
    (by rw [State.setValve_same]; exact schedule) (by rw [State.setValve_same]; exact valve)

theorem State.modValve_keeps (s : State) (j : Valve) {f : ValveRecord → ValveRecord}
    (schedule : (s.valve j).schedule.Fits s.group.mode → (f (s.valve j)).schedule.Fits s.group.mode)
    (valve : (s.valve j).Ranged s.unit → (f (s.valve j)).Ranged s.unit) :
    Keeps s (s.modValve j f) := s.setValve_keeps j schedule valve

theorem State.modChannel_keeps (s : State) (j : Valve) {f : Channel → Channel}
    (channel : (s.valve j).channel.Ranged → (f (s.valve j).channel).Ranged) :
    Keeps s (s.modChannel j f) :=
  s.modValve_keeps j id fun ⟨gamma, failures, angle, c⟩ => ⟨gamma, failures, angle, channel c⟩

theorem State.modLink_keeps (s : State) (l : Link) {f : LinkState → LinkState}
    (link : (s.link l).Ranged → (f (s.link l)).Ranged) : Keeps s (s.modLink l f) := by
  refine ⟨by simp, by simp, by simp, by simp, fun k => ?_⟩
  rw [State.modLink_link]
  split
  · rename_i h; subst h; exact link
  · exact id

theorem State.guard_keeps (s : State) {g : Guard}
    (guard : s.guard.Ranged s.unit → g.Ranged s.unit) : Keeps s { s with guard := g } :=
  .of_rest (s.update_rest s.counter g s.group s.tracker s.sent s.handed) id guard (fun _ => id)
    fun _ => id

/-- A change within the mode held, in the parts that no mode asks for. -/
theorem State.group_keeps (s : State) {g : Group} (mode : g.mode = s.group.mode)
    (group : s.group.Fits → g.Fits) : Keeps s { s with group := g } :=
  .of_rest (s.update_rest s.counter s.guard g s.tracker s.sent s.handed) group id
    (fun _ h => mode ▸ h) fun _ => id

/-! ## Levels, closings and the guard -/

theorem State.levelChange_keeps (s : State) (j : Valve) (c : LevelState × LevelState) :
    Keeps s (s.levelChange j c) := by
  have h := s.levelChange_frame j c
  exact .of_own (s.levelChange_rest ..) h.group h.guard h.others (by rw [h.own]; exact id)
    (by rw [h.own]; exact id)

theorem State.closeInterval_keeps (s : State) (j : Valve) : Keeps s (s.closeInterval j) := by
  obtain ⟨-, guard, group, -, -, -, others, own, -⟩ := s.closeInterval_frame j
  exact .of_own (s.closeInterval_rest j) group guard others (by rw [own]; exact id)
    (by rw [own]; exact id)

theorem gammaOf_le (b d : Instant) (p : Nat) : gammaOf b d p ≤ 30000 := Nat.min_le_left _ _

/-- The advance stays within ADVMAX after a measurement (R112). -/
theorem advanceAfter_le {a gamma gmin advmax advdec : Nat} (h : a ≤ advmax) :
    advanceAfter a gamma gmin advmax advdec ≤ advmax := by
  unfold advanceAfter
  split <;> omega

theorem State.failCommutation_keeps (s : State) (j : Valve) :
    Keeps s (s.failCommutation j) := by
  have marked := s.guard_keeps (g := { s.guard with advance := s.par Par.advmax, mark := true })
    fun g => ⟨fun im hu => (State.par_ready hu _).le, g.failCycles, g.lowest, g.reportedLow⟩
  have counted (u : State) := u.modValve_keeps j
    (f := fun v => { v with commFailures := bump Config.count16 v.commFailures }) id
    fun ⟨gamma, _, angle, c⟩ => ⟨gamma, Nat.min_le_left _ _, angle, c⟩
  exact (marked.trans (counted _)).trans (State.post_keeps ..)

theorem State.measure_keeps (s : State) (j : Valve) (b d : Instant) :
    Keeps s (s.measure j b d) := by
  have range := gammaOf_le b d s.tracker.period
  have measured := s.modValve_keeps j
    (f := fun v => { v with lastGamma := some (gammaOf b d s.tracker.period) }) id
    fun ⟨_, failures, angle, c⟩ => ⟨fun n hn => Option.some.inj hn ▸ range, failures, angle, c⟩
  refine measured.trans (State.guard_keeps _ fun g => ⟨fun im hu => ?_, g.failCycles,
    fun n hn => ?_, g.reportedLow⟩)
  · have advmax : s.par Par.advmax = Par.advmax im := State.par_ready hu _
    exact advmax ▸ advanceAfter_le (advmax ▸ g.advance im hu)
  · rw [← Option.some.inj hn]
    exact (Nat.min_le_left _ _).trans range

/-! ## Fire messages -/

theorem ValveRecord.withLastSend_ranged {unit : UnitState} {v : ValveRecord} {t : Instant}
    (h : v.Ranged unit) : (v.withLastSend t).Ranged unit := by
  obtain ⟨gamma, failures, angle, c⟩ := h
  exact ⟨gamma, failures, angle, c.up, c.run, c.counts⟩

theorem State.sendFire_keeps (s : State) (j : Valve) : Keeps s (s.sendFire j) := by
  refine .of_own (j := j) (s.sendFire_rest j) rfl rfl (fun i hi => ?_) ?_ ?_
  · rw [State.sendFire_valve, if_neg hi]
  · rw [State.sendFire_valve, if_pos rfl]
    exact id
  · rw [State.sendFire_valve, if_pos rfl]
    exact ValveRecord.withLastSend_ranged

theorem State.sendIdle_keeps (s : State) (j : Valve) : Keeps s (s.sendIdle j) := by
  refine .of_own (j := j) (s.sendIdle_rest j) rfl rfl (fun i hi => ?_) ?_ ?_
  · rw [State.sendIdle_valve, if_neg hi]
  · rw [State.sendIdle_valve, if_pos rfl]
    exact id
  · rw [State.sendIdle_valve, if_pos rfl]
    exact ValveRecord.withLastSend_ranged

theorem State.noteUpper_keeps (s : State) (j : Valve) : Keeps s (s.noteUpper j) := by
  unfold State.noteUpper
  split
  · exact .refl s
  · rename_i hm
    exact s.group_keeps rfl fun g => ⟨g.origin, g.legs, g.gating, fun h => absurd h hm⟩

theorem State.commutate_keeps (s : State) (j : Valve) : Keeps s (s.commutate j) := by
  unfold State.commutate
  simp only
  split
  · split
    · split
      · exact s.failCommutation_keeps j
      · exact s.setValve_keeps j id id
    · exact s.setValve_keeps j id id
  · exact .refl s

theorem ValveRecord.countFiring_fits {mode : Mode} {v : ValveRecord} (k : FireKind)
    (h : v.schedule.Fits mode) : (v.countFiring k).schedule.Fits mode := by
  cases k <;> exact ⟨h.zeros, h.expiry, h.fireAt, h.cancelled⟩

theorem ValveRecord.countFiring_ranged {unit : UnitState} {v : ValveRecord} (k : FireKind)
    (h : v.Ranged unit) : (v.countFiring k).Ranged unit := by
  cases k <;> exact h

theorem State.fireOwn_keeps (s : State) (k : FireKind) (j : Valve) : Keeps s (s.fireOwn k j) := by
  have noted := ((s.sendFire_keeps j).trans (State.modValve_keeps _ j (f := fun v =>
      { v.countFiring k with monitor := { (v.countFiring k).monitor with
        lastFire := some s.timebase } })
    (ValveRecord.countFiring_fits k) (ValveRecord.countFiring_ranged k))).trans
      (State.noteUpper_keeps _ j)
  unfold State.fireOwn
  simp only
  split
  · exact noted
  · exact (noted.trans (State.modValve_keeps _ j id id)).trans (State.closeInterval_keeps _ j)

theorem State.fire_keeps (s : State) (k : FireKind) (j : Valve) : Keeps s (s.fire k j) := by
  rw [State.fire_eq]
  split
  · exact (s.fireOwn_keeps k j).trans (State.commutate_keeps ..)
  · exact s.fireOwn_keeps k j

/-- A schedule with nothing unissued fits where it fitted before (R30). -/
theorem Schedule.Fits.issued {mode : Mode} {c : Schedule} (h : c.Fits mode) :
    { c with fireAt := none, expiry := none }.Fits mode :=
  ⟨h.zeros, nofun, nofun, h.cancelled⟩

theorem State.clearIssued_keeps (s : State) (j : Valve) : Keeps s (s.modValve j fun v =>
    { v with schedule := { v.schedule with fireAt := none, expiry := none } }) :=
  s.modValve_keeps j Schedule.Fits.issued id

theorem State.issue_keeps (s : State) (k : FireKind) (j : Valve) : Keeps s (s.issue k j) :=
  (s.fire_keeps k j).trans (State.clearIssued_keeps _ j)

theorem State.fireLegs_keeps (s : State) : Keeps s s.fireLegs := by
  unfold State.fireLegs
  split
  · exact .refl s
  · exact s.choose_keeps.trans (.foldl (fun s j => State.fire_keeps s .bypass j) _ _)

end Sys2Proof.Machine
end

section
/-! PROOF. Entering a mode, refusing, tripping and handing a reference on keep every part of the
invariants (R22, R34, R117, R126, R131, R134, R137). -/

namespace Sys2Proof.Machine

open Sys2Proof

/-! ## Modes and trips -/

theorem Schedule.Fits.cancel {mode : Mode} {c : Schedule} (h : c.Fits mode) (mode' : Mode) :
    { c with fireAt := none, expiry := none, deadline := none }.Fits mode' :=
  ⟨h.zeros, nofun, nofun, fun _ => rfl⟩

/-- Leaving a mode, a schedule fits every mode: those of RUNNING are cancelled (R34). -/
theorem State.leaveMode_fits (s : State) (j : Valve) (mode : Mode)
    (h : (s.valve j).schedule.Fits s.group.mode) : (s.leaveMode.valve j).schedule.Fits mode := by
  rw [s.leaveMode_valve]
  split
  · exact h.cancel mode
  · rename_i hm
    exact ⟨h.zeros, h.expiry, h.fireAt, fun _ => h.cancelled hm⟩

theorem State.leaveMode_ranged (s : State) (j : Valve) {unit : UnitState}
    (h : (s.valve j).Ranged unit) : (s.leaveMode.valve j).Ranged unit := by
  rw [s.leaveMode_valve]
  split <;> exact h

theorem Group.fits_blocked (g : Group) : { g with
    mode := .blocked, origin := none, lastUpperY := none, lastUpperD := none, legs := none
    gatingExpiry := none }.Fits :=
  ⟨by simp, by simp, by simp, fun _ => ⟨rfl, rfl⟩⟩

theorem Guard.Ranged.zero {unit : UnitState} {g : Guard} (h : g.Ranged unit) :
    { g with advance := 0 }.Ranged unit :=
  ⟨fun _ _ => Nat.zero_le _, h.failCycles, h.lowest, h.reportedLow⟩

theorem State.enterBlocked_keeps (s : State) : Keeps s s.enterBlocked := by
  have guard : s.leaveMode.guard = s.guard := by rw [State.leaveMode_eq]
  exact .of_rest s.enterBlocked_rest (fun _ => s.leaveMode.group.fits_blocked)
    (fun h => (guard ▸ h : s.leaveMode.guard.Ranged s.unit).zero)
    (fun j => s.leaveMode_fits j .blocked) fun j => s.leaveMode_ranged j

/-- DEBLOCKING keeps the legs and the gating of the BYPASS it is entered from (R126). -/
theorem State.enterDeblocking_keeps (s : State) {o : Origin}
    (h : (s.group.mode = .blocked ∧ o = .fromBlocked) ∨ (s.group.mode = .bypass ∧ o = .fromBypass)) :
    Keeps s (s.enterDeblocking o) := by
  have idle : s.group.mode ≠ .running := by rcases h with ⟨hm, -⟩ | ⟨hm, -⟩ <;> simp [hm]
  refine .of_rest (s.enterDeblocking_rest o) (fun g => ⟨by simp [State.enterDeblocking], ?_,
    g.gating, nofun⟩) id (fun j c => ⟨c.zeros, c.expiry, c.fireAt, fun _ => c.cancelled idle⟩)
    fun _ => id
  show s.group.legs.isSome ↔ (Mode.deblocking = .bypass ∨ some o = some .fromBypass)
  have origin : s.group.origin = none := by
    have := g.origin
    rcases h with ⟨hm, -⟩ | ⟨hm, -⟩ <;> simpa [hm] using this
  rw [g.legs, origin]
  rcases h with ⟨hm, rfl⟩ | ⟨hm, rfl⟩ <;> simp [hm]

theorem State.enterRunning_keeps {s : State} (h : s.group.mode = .deblocking) :
    Keeps s s.enterRunning :=
  .of_rest s.enterRunning_rest (fun _ => ⟨by simp [State.enterRunning], by simp [State.enterRunning],
    by simp [State.enterRunning], nofun⟩) (fun g => g.zero)
    (fun j c => ⟨c.zeros, c.expiry, c.fireAt, fun _ => c.cancelled (by simp [h])⟩) fun _ => id

theorem State.bypassFired_ranged (s : State) (j : Valve)
    (h : (s.valve j).Ranged s.unit) : (s.bypassFired.valve j).Ranged s.unit := by
  have fired : Keeps s.bypassEntered s.bypassFired :=
    .foldl (fun w j => State.fire_keeps w .bypass j) _ _
  have := fired.valves j (s.leaveMode_ranged j h)
  rwa [s.bypassFired_rest.unit] at this

theorem State.enterBypass_keeps (s : State) : Keeps s s.enterBypass := by
  refine .of_rest s.enterBypass_rest (fun _ => ?_) (fun g => by rwa [s.enterBypass_guard])
    (fun j h => ?_) fun j h => ?_
  · rw [s.enterBypass_group]
    exact ⟨by simp, by simp, by simp, nofun⟩
  · rw [s.enterBypass_schedule]
    exact s.leaveMode_fits j _ h
  · rw [s.enterBypass_valve]
    exact s.bypassFired_ranged j h

/-- No mode asks for the trip causes or the last refusal. -/
theorem State.groupNews_keeps (s : State) (trips : TripSet) (refusal : Option RefusalReason)
    (src : Source) (bits : BitVec 12) :
    Keeps s (({ s with group := { s.group with
      trips := trips, refusal := refusal } } : State).post src bits) :=
  (s.group_keeps (g := { s.group with trips := trips, refusal := refusal }) rfl
    fun g => ⟨g.origin, g.legs, g.gating, g.uppers⟩).trans (State.post_keeps ..)

theorem State.refuse_keeps (s : State) (r : RefusalReason) : Keeps s (s.refuse r) :=
  s.groupNews_keeps ..

theorem State.addTrip_keeps (s : State) (c : TripCause) : Keeps s (s.addTrip c) := by
  unfold State.addTrip
  split
  · exact .refl s
  · exact s.groupNews_keeps ..

theorem State.actOnTrip_keeps (s : State) (c : TripCause) : Keeps s (s.actOnTrip c) := by
  unfold State.actOnTrip
  split
  · exact .refl s
  · exact .refl s
  · exact s.enterBlocked_keeps.trans (State.refuse_keeps ..)
  · split
    · exact s.enterBypass_keeps
    · exact .refl s

theorem State.latch_keeps (s : State) (c : TripCause) : Keeps s (s.latch c) := by
  unfold State.latch
  split
  · exact .refl s
  · split
    · exact s.addTrip_keeps c
    · exact (s.addTrip_keeps c).trans (State.actOnTrip_keeps ..)

theorem State.settle_keeps (s : State) : Keeps s s.settle :=
  .trans (.of_same rfl rfl rfl rfl rfl rfl : Keeps s { s with handed := [] })
    (.foldl State.latch_keeps _ _)

theorem State.requestRun_keeps (s : State) {o : Origin}
    (h : (s.group.mode = .blocked ∧ o = .fromBlocked) ∨ (s.group.mode = .bypass ∧ o = .fromBypass)) :
    Keeps s (s.requestRun o) := by
  unfold State.requestRun
  split
  · exact s.enterDeblocking_keeps h
  · exact s.refuse_keeps _

theorem State.judgeRequest_keeps (s : State) (r : Requested) : Keeps s (s.judgeRequest r) := by
  unfold State.judgeRequest
  split
  · split
    · exact .refl s
    · exact s.refuse_keeps _
    · exact s.refuse_keeps _
  · split
    case h_5 hm => exact s.requestRun_keeps (.inl ⟨hm, rfl⟩)
    case h_6 hm => exact s.requestRun_keeps (.inr ⟨hm, rfl⟩)
    case h_7 | h_8 | h_9 => exact s.enterBlocked_keeps
    case h_10 | h_11 | h_12 => exact s.enterBypass_keeps
    all_goals exact .refl s

theorem State.clearTrips_keeps (s : State) : Keeps s s.clearTrips := by
  unfold State.clearTrips
  split
  · exact s.group_keeps rfl fun g => ⟨g.origin, g.legs, g.gating, g.uppers⟩
  · exact .refl s

theorem State.recheck_keeps (s : State) : Keeps s s.recheck := by
  unfold State.recheck
  split
  · rename_i hm
    split
    · exact State.enterRunning_keeps hm
    · exact s.enterBlocked_keeps.trans (State.refuse_keeps ..)
  · exact .refl s

theorem State.recheckAndSettle_keeps (s : State) : Keeps s s.recheckAndSettle := by
  unfold State.recheckAndSettle
  split
  · split
    · exact s.recheck_keeps
    · simp only
      split
      · exact (s.choose_keeps.trans (State.settle_keeps _)).trans (State.recheck_keeps _)
      · exact (s.choose_keeps.trans (State.recheck_keeps _)).trans (State.settle_keeps _)
  · exact s.settle_keeps

/-! ## The hand-off of a reference -/

/-- A zero fits behind one zero at most (R22). -/
theorem ValveRecord.offered_fits {mode : Mode} {v : ValveRecord} (p : Nat) (z : Instant)
    (h : v.schedule.Fits mode) : (v.offered p z).schedule.Fits mode := by
  by_cases hz : zeroFits v.schedule.zeros z p = true
  · rw [ValveRecord.offered_of_fits hz]
    refine ⟨?_, h.expiry, h.fireAt, h.cancelled⟩
    rcases zeroFits_iff.1 hz with e | ⟨z1, e, -⟩ <;> simp [e]
  · rw [ValveRecord.offered_of_slip hz]
    exact ⟨h.zeros, h.expiry, h.fireAt, h.cancelled⟩

theorem ValveRecord.offered_ranged {unit : UnitState} {v : ValveRecord} (p : Nat) (z : Instant)
    (h : v.Ranged unit) : (v.offered p z).Ranged unit := by
  unfold ValveRecord.offered
  split <;> exact h

theorem Guard.Ranged.closed {unit : UnitState} {g : Guard} (h : g.Ranged unit) :
    { g with
      failCycles := if g.mark then min 255 (g.failCycles + 1) else 0
      mark := false, reportedLow := g.lowest, lowest := none }.Ranged unit := by
  refine ⟨h.advance, ?_, nofun, h.lowest⟩
  simp only
  split
  · exact Nat.min_le_left _ _
  · exact Nat.zero_le _

theorem State.handReference_keeps (s : State) (im : Image) (tref : Instant) :
    Keeps s (s.handReference im tref) := by
  rw [State.handReference_eq]
  refine .trans ?_ (State.recheckAndSettle_keeps _)
  have group := s.referenceTaken_group im tref
  refine .of_rest (s.referenceTaken_rest im tref) (by rw [group]; exact id) (fun h => ?_)
    (fun j h => ?_) fun j h => ?_
  · rw [s.referenceTaken_only]
    exact h.closed
  · rw [s.referenceTaken_valve, group]
    exact ValveRecord.offered_fits _ _ h
  · rw [s.referenceTaken_valve]
    obtain ⟨gamma, failures, angle, -⟩ := ValveRecord.offered_ranged s.tracker.period
      (zeroFrom im j tref s.tracker.period) h
    obtain ⟨up, run, errors, -, total⟩ := h.2.2.2
    exact ⟨gamma, failures, angle, up, run, errors, Nat.zero_le _, total⟩

end Sys2Proof.Machine
end

section
/-! PROOF. Messages, reports and the Firing Scheduler keep every part of the invariants (R25, R28, R30,
R41 to R44, R50, R99). -/

namespace Sys2Proof.Machine

open Sys2Proof

/-! ## Messages (R41 to R44, R50) -/

theorem bump_le (limit n : Nat) : bump limit n ≤ limit := Nat.min_le_left _ _

theorem State.discardMessage_keeps (s : State) (j : Valve) : Keeps s (s.discardMessage j) := by
  refine s.modChannel_keeps j fun c => ⟨fun h => ?_, ?_, bump_le _ _, c.counts.2⟩
  · obtain ⟨run, message⟩ := c.up h
    exact ⟨(if_pos h).trans run, message⟩
  · show (if (s.valve j).channel.up then (s.valve j).channel.run else 0) ≤ 7
    split
    · exact c.run
    · exact Nat.zero_le _

theorem State.superviseMessage_keeps (s : State) (j : Valve) :
    Keeps s (s.superviseMessage j) := by
  have heard : Keeps s (s.modChannel j fun c => { c with lastMessage := some s.timebase }) :=
    s.modChannel_keeps j fun c => ⟨fun h => ⟨(c.up h).1, rfl⟩, c.run, c.counts⟩
  have channel : ((s.modChannel j fun c => { c with lastMessage := some s.timebase }).valve
      j).channel = { (s.valve j).channel with lastMessage := some s.timebase } := by
    simp [State.modChannel]
  unfold State.superviseMessage
  simp only
  split
  · exact heard
  · rename_i down
    split
    · refine (heard.trans (State.modChannel_keeps _ j fun c => ?_)).trans (State.post_keeps ..)
      rw [channel] at c ⊢
      exact ⟨fun _ => ⟨rfl, rfl⟩, Nat.zero_le _, c.counts⟩
    · rename_i short
      refine heard.trans (State.modChannel_keeps _ j fun c => ?_)
      rw [channel] at c ⊢
      exact ⟨fun h => absurd h down, Nat.le_of_lt_succ (Nat.lt_of_not_le short), c.counts⟩

theorem State.countNoise_keeps (s : State) (im : Image) (j : Valve) :
    Keeps s (s.countNoise im j) := by
  have counted := s.modChannel_keeps j (f := fun c =>
    { c with noiseTotal := bump Config.count16 c.noiseTotal
             noiseCycle := bump Config.count8 c.noiseCycle })
    fun c => ⟨c.up, c.run, c.counts.1, bump_le _ _, bump_le _ _⟩
  unfold State.countNoise
  simp only
  split
  · exact counted.trans (State.post_keeps ..)
  · exact counted

/-! ## Reports -/

theorem State.applyAnswer_keeps (s : State) (j : Valve) (p : Nat) (a : Answer) :
    Keeps s (s.applyAnswer j p a) := by
  unfold State.applyAnswer
  simp only
  split
  · refine .trans ?_ (State.levelChange_keeps ..)
    refine .trans (u := { s with counter := nextCounter s.counter })
      (.of_same rfl rfl rfl rfl rfl rfl) ?_
    exact State.setValve_keeps _ j id id
  · exact s.setValve_keeps j id id

theorem State.fireProtective_keeps (s : State) (j : Valve) : Keeps s (s.fireProtective j) := by
  have fired := (s.fire_keeps .protective j).trans
    (State.post_keeps (s.fire .protective j) (.valve j) valveProtective)
  unfold State.fireProtective
  simp only
  split
  · exact fired.trans (State.issue_keeps ..)
  · exact fired

theorem State.blockBack_keeps (s : State) (j : Valve) (b : Instant) :
    Keeps s (s.blockBack j b) := by
  unfold State.blockBack
  simp only
  split
  · refine .trans ?_ (State.measure_keeps ..)
    exact s.setValve_keeps j id id
  · exact s.setValve_keeps j id id

theorem State.quorumReached_keeps (s : State) (j : Valve) (b : Instant) :
    Keeps s (s.quorumReached j b) := by
  unfold State.quorumReached
  simp only
  split
  · split
    · exact .refl s
    · exact s.setValve_keeps j id id
  · split
    · exact s.blockBack_keeps j b
    · split
      · exact (s.issue_keeps ..).trans (State.post_keeps ..)
      · exact .refl s

theorem State.actOnIndication_keeps (s : State) (j : Valve) (m : Mark) (a : Answer)
    (b : Instant) : Keeps s (s.actOnIndication j m a b) := by
  unfold State.actOnIndication
  split
  · split
    · exact s.quorumReached_keeps j b
    · exact .refl s
  · split
    · exact s.fire_keeps ..
    · exact .refl s

theorem State.takeReport_keeps (s : State) (j : Valve) (p : Nat) (cls : ReportClass)
    (b : Instant) : Keeps s (s.takeReport j p cls b) := by
  have answered := s.applyAnswer_keeps j p
    (((s.valve j).level p).take cls (s.markOf j) b s.tracker.cycle)
  unfold State.takeReport
  simp only
  split
  · exact .refl s
  · split
    · exact answered.trans (State.fireProtective_keeps ..)
    · split
      · exact answered.trans (State.actOnIndication_keeps ..)
      · exact answered

theorem State.messageArrives_keeps (s : State) (j : Valve) (m : Option Inbound) :
    Keeps s (s.messageArrives j m) := by
  have taken (cls : ReportClass) (r : PulseReport) :
      Keeps s ((s.superviseMessage j).takeReport j r.position cls r.stamp).settle :=
    ((s.superviseMessage_keeps j).trans (State.takeReport_keeps ..)).trans (State.settle_keeps _)
  unfold State.messageArrives State.takePulseReport
  split
  · exact .refl s
  · split
    · exact s.discardMessage_keeps j
    · exact s.superviseMessage_keeps j
    · split
      · exact (s.superviseMessage_keeps j).trans (State.countNoise_keeps ..)
      · exact taken .ind _
      · exact taken .pfi _
      · exact taken .lft _

/-! ## The Firing Scheduler -/

theorem clamp_mem {x lo hi : Nat} (h : lo ≤ hi) : lo ≤ clamp x lo hi ∧ clamp x lo hi ≤ hi := by
  unfold clamp
  split
  · exact ⟨le_rfl, h⟩
  · split <;> omega

theorem imageValid_angles {im : Image} (h : imageValid im = true) : Par.amin im ≤ Par.amax im := by
  simp only [imageValid, groupInRange, inRange, Bool.and_eq_true, decide_eq_true_eq] at h
  omega

/-- The latched angle lies within AMIN … AMAX of a valid image (R25). -/
theorem State.latchedAngle_inRange (s : State) : angleInRange s.unit s.latchedAngle := by
  intro im hu hv
  right
  unfold State.latchedAngle
  simp only [State.par_ready hu]
  split <;> exact clamp_mem (imageValid_angles hv)

theorem State.takeZero_keeps (s : State) (j : Valve) {z : Instant} {rest : List Instant}
    (h : (s.valve j).schedule.zeros = z :: rest) : Keeps s (s.takeZero j z rest) := by
  refine s.modValve_keeps j (f := fun v =>
      { v with schedule := { v.schedule with zeros := rest, zero := z, alphaEff := s.latchedAngle } })
    (fun c => ⟨?_, c.expiry, c.fireAt, c.cancelled⟩)
    fun ⟨gamma, failures, _, c⟩ => ⟨gamma, failures, s.latchedAngle_inRange, c⟩
  have two := c.zeros
  rw [h, List.length_cons] at two
  exact Nat.le_of_succ_le two

theorem State.commutate_group (s : State) (j : Valve) : (s.commutate j).group = s.group := by
  unfold State.commutate
  simp only
  split
  · split
    · split <;> rfl
    · rfl
  · rfl

/-- A fire message moves no mode. -/
theorem State.fire_group (s : State) (k : FireKind) (j : Valve) :
    (s.fire k j).group = (s.noteUpper j).group := by
  obtain ⟨-, -, -, -, group, -⟩ := s.fireOwn_frame k j
  rw [State.fire_eq]
  split
  · exact (State.commutate_group ..).trans group
  · exact group

theorem State.pullIn_mode (s : State) (j : Valve) : (s.pullIn j).group.mode = s.group.mode := by
  unfold State.pullIn
  split
  · exact (congrArg Group.mode (s.fire_group .pulledIn j)).trans (s.noteUpper_mode j)
  · rfl

theorem State.pullIn_keeps (s : State) (j : Valve) : Keeps s (s.pullIn j) := by
  unfold State.pullIn
  split
  · exact (s.issue_keeps ..).trans (State.post_keeps ..)
  · exact .refl s

theorem State.scheduleFiring_keeps {s : State} (h : s.group.mode = .running) (j : Valve) :
    Keeps s (s.scheduleFiring j) := by
  unfold State.scheduleFiring
  exact s.modValve_keeps j (fun c => ⟨c.zeros, fun _ => rfl, fun _ => rfl, fun hm => absurd h hm⟩) id

theorem State.closeAtTakeUp_keeps (s : State) (j : Valve) : Keeps s (s.closeAtTakeUp j) := by
  unfold State.closeAtTakeUp
  split
  · exact s.closeInterval_keeps j
  · exact .refl s

/-- A held firing is one that is set (R30). -/
theorem State.checkReadiness_keeps {s : State} {j : Valve} {f : Instant}
    (h : (s.valve j).schedule.fireAt = some f) : Keeps s (s.checkReadiness j f) := by
  unfold State.checkReadiness
  simp only
  split
  · exact s.setValve_keeps j (fun c => ⟨c.zeros, fun _ => by simp [h], c.fireAt, c.cancelled⟩) id
  · exact s.issue_keeps ..

end Sys2Proof.Machine
end

section
/-! PROOF. Frames, replies, requests, starts and resets keep every part of the invariants (R142, R145,
R151, R159, R164, R165, R167). -/

namespace Sys2Proof.Machine

open Sys2Proof

/-! ## The links -/

section
variable {k : LinkState} (h : k.Ranged)
include h

theorem LinkState.Ranged.attention (a : Vector (BitVec 12) Config.sourceCount) :
    { k with attention := a }.Ranged :=
  ⟨h.waiting, h.onLine, h.heard, h.errors, h.foreign, h.cursor⟩

theorem LinkState.Ranged.silenced : { k with silent := true }.Ranged :=
  ⟨h.waiting, h.onLine, nofun, h.errors, h.foreign, h.cursor⟩

theorem LinkState.Ranged.hears (t : Instant) (r : Role) :
    { k with lastValid := some t, role := r, silent := false }.Ranged :=
  ⟨h.waiting, h.onLine, fun _ => rfl, h.errors, h.foreign, h.cursor⟩

theorem LinkState.Ranged.countsError :
    { k with errors := bump Config.count16 k.errors }.Ranged :=
  ⟨h.waiting, h.onLine, h.heard, bump_le _ _, h.foreign, h.cursor⟩

theorem LinkState.Ranged.countsForeign :
    { k with foreign := bump Config.count16 k.foreign }.Ranged :=
  ⟨h.waiting, h.onLine, h.heard, h.errors, bump_le _ _, h.cursor⟩

theorem LinkState.Ranged.moved {c : Cursor} (hc : 1 ≤ c.position ∧ c.position ≤ 80) :
    { k with cursor := c }.Ranged :=
  ⟨h.waiting, h.onLine, h.heard, h.errors, h.foreign, hc⟩

theorem LinkState.Ranged.dropTopWord : k.dropTopWord.Ranged := by
  unfold LinkState.dropTopWord
  split
  · exact h
  · exact h.attention _

/-- A reply is queued behind two waiting ones at most (R151). -/
theorem LinkState.Ranged.enqueue (room : k.replyFull = false) (r : Reply) :
    (k.enqueue r).Ranged := by
  obtain ⟨waiting, online⟩ := LinkState.enqueue_waiting (r := r) room h.onLine
  refine ⟨waiting, fun e => absurd e online, ?_, ?_, ?_, ?_⟩ <;>
    (unfold LinkState.enqueue; split)
  · exact h.heard
  · exact h.heard
  · exact h.errors
  · exact h.errors
  · exact h.foreign
  · exact h.foreign
  · exact h.cursor
  · exact h.cursor

/-- The next waiting reply goes out (R151). -/
theorem LinkState.Ranged.replied :
    { k with onLine := k.waiting.head?, waiting := k.waiting.tail }.Ranged := by
  refine ⟨?_, fun e => ?_, h.heard, h.errors, h.foreign, h.cursor⟩
  · exact (List.length_tail ▸ Nat.sub_le _ _ : k.waiting.tail.length ≤ _).trans h.waiting
  · show k.waiting.tail = []
    rw [List.head?_eq_none_iff.1 e]
    rfl

end

theorem State.judgeSilence_keeps (s : State) (l : Link) : Keeps s (s.judgeSilence l) := by
  unfold State.judgeSilence
  split
  · exact (s.modLink_keeps l fun k => k.silenced).trans (State.post_keeps ..)
  · exact .refl s

theorem State.select_keeps (s : State) (l : Link) : Keeps s { s with sel := l } :=
  .of_same rfl rfl rfl rfl rfl rfl

theorem State.judgeSelection_keeps (s : State) (l : Link) (r : Role) :
    Keeps s (s.judgeSelection l r) := by
  unfold State.judgeSelection
  split
  · exact .refl s
  · split
    · exact (s.select_keeps l).trans (State.post_keeps ..)
    · exact s.post_keeps ..

/-- A frame keeps the parts when what serves it does. -/
theorem State.receive_keeps {serve : State → State} (hs : ∀ w, Keeps w (serve w)) (s : State)
    (l : Link) (bytes : List Byte) (r : Role) : Keeps s (s.receive l bytes r serve) := by
  unfold State.receive
  split
  · exact (s.modLink_keeps l fun k => k.countsError).trans (State.post_keeps ..)
  · exact s.modLink_keeps l fun k => k.countsForeign
  · exact ((s.modLink_keeps l fun k => k.hears _ _).trans (State.judgeSelection_keeps ..)).trans
      (hs _)

theorem State.replyStatus_keeps (s : State) (l : Link) (a : BitVec 6) :
    Keeps s (s.replyStatus l a) := by
  unfold State.replyStatus
  split
  · exact s.modLink_keeps l fun k => k.countsError
  · rename_i room
    refine s.modLink_keeps l fun k => k.dropTopWord.enqueue ?_ _
    unfold LinkState.dropTopWord
    split <;> exact Bool.eq_false_iff.2 room

theorem State.replyService_keeps (s : State) (l : Link) (a : BitVec 6) (code : BitVec 4)
    (result : ServiceResult) (data : List Byte) :
    Keeps s (s.replyService l a code result data) := by
  unfold State.replyService
  split
  · exact s.modLink_keeps l fun k => k.countsError
  · rename_i room
    refine .trans (s.modLink_keeps l fun k => k.enqueue (Bool.eq_false_iff.2 room) (.service
      { address := s.replyAddress a, code := code, stored := s.stored, result := result
        counter := s.counter, data := data })) (.of_same rfl rfl rfl rfl rfl rfl)

theorem State.takeOrder_keeps (s : State) (f : OrderFrame) : Keeps s (s.takeOrder f) := by
  have ordered : Keeps s { s with
      order := { alpha := f.alpha, requested := requestedOf f.mode }
      lastTaken := some s.timebase, limitPassed := false } := .of_same rfl rfl rfl rfl rfl rfl
  unfold State.takeOrder
  simp only
  refine .trans (.trans ?_ (State.judgeRequest_keeps ..)) (State.settle_keeps _)
  split
  · exact ordered.trans (State.clearTrips_keeps _)
  · exact ordered

theorem State.serveOrder_keeps (s : State) (l : Link) (f : OrderFrame) :
    Keeps s (s.serveOrder l f) := by
  unfold State.serveOrder
  refine .trans ?_ (State.replyStatus_keeps ..)
  split
  · exact s.takeOrder_keeps f
  · exact .refl s

/-! ## Starts and resets -/

/-- A part with every block at its values after a reset. -/
theorem Keeps.of_blank {s u : State} (group : u.group = {}) (guard : u.guard = {})
    (valves : ∀ j, u.valve j = {}) (links : ∀ l, u.link l = {}) : Keeps s u where
  group _ := by rw [group]; exact ⟨by decide, by decide, by decide, fun _ => ⟨rfl, rfl⟩⟩
  guard _ := by rw [guard]; exact ⟨fun _ _ => Nat.zero_le _, Nat.zero_le _, nofun, nofun⟩
  schedules j _ := by rw [valves]; exact ⟨Nat.zero_le _, nofun, nofun, fun _ => rfl⟩
  valves j _ := by
    rw [valves]
    exact ⟨nofun, Nat.zero_le _, fun _ _ _ => .inl rfl, nofun, Nat.zero_le _, by decide⟩
  links l _ := by
    rw [links]
    exact ⟨Nat.zero_le _, fun _ => rfl, nofun, Nat.zero_le _, Nat.zero_le _, by decide⟩

theorem State.resetBlocks_keeps (s : State) : Keeps s s.resetBlocks :=
  .of_blank rfl rfl State.reset_valve State.reset_link

/-- The unit leaves READY, or never was there: no range is asked of it that was not. -/
theorem Keeps.of_unit {s u : State} (hu : ∀ im, u.unit ≠ .ready im) (valves : u.valves = s.valves)
    (guard : u.guard = s.guard) (group : u.group = s.group) (linkA : u.linkA = s.linkA)
    (linkB : u.linkB = s.linkB) : Keeps s u := by
  have valve (j : Valve) : u.valve j = s.valve j := by unfold State.valve; rw [valves]
  have link (l : Link) : u.link l = s.link l := by cases l <;> assumption
  exact ⟨by rw [group]; exact id,
    fun g => by rw [guard]; exact ⟨fun im e => absurd e (hu im), g.failCycles, g.lowest, g.reportedLow⟩,
    fun j => by rw [valve, group]; exact id,
    fun j ⟨gamma, failures, _, c⟩ => by
      rw [valve]; exact ⟨gamma, failures, fun im e => absurd e (hu im), c⟩,
    fun l => by rw [link]; exact id⟩

/-- The blocks start under an image with the group's values kept or reset (R141, R164, R165). -/
theorem State.startBlocks_keeps (s : State) (im : Image) {g : Group} (hg : s.group.Fits → g.Fits) :
    Keeps s { s.startBlocks im with group := g } := by
  have frame := s.startBlocks_frame im
  have valve (j : Valve) : ({ s.startBlocks im with group := g } : State).valve j
      = ValveRecord.started im j (s.valve j).channel.lastSend := by
    show (s.startBlocks im).valve j = _
    rw [frame]
    simp [State.valve]
  have link (l : Link) : ({ s.startBlocks im with group := g } : State).link l
      = (s.startBlocks im).link l := by cases l <;> rfl
  refine ⟨hg, fun _ => ?_, fun j _ => ?_, fun j _ => ?_, fun l k => ?_⟩
  · rw [show ({ s.startBlocks im with group := g } : State).guard = {} by rw [frame]]
    exact ⟨fun _ _ => Nat.zero_le _, Nat.zero_le _, nofun, nofun⟩
  · rw [valve]
    exact ⟨Nat.zero_le _, nofun, nofun, fun _ => rfl⟩
  · rw [valve]
    exact ⟨nofun, Nat.zero_le _, fun _ _ _ => .inl rfl, nofun, Nat.zero_le _,
      by simp [ValveRecord.started]⟩
  · rw [link, s.startBlocks_link]
    refine ⟨k.waiting, k.onLine, fun h => k.heard ?_, k.errors, k.foreign, k.cursor⟩
    exact (Bool.or_eq_false_iff.1 h).1

theorem State.beginService_keeps (s : State) : Keeps s s.beginService :=
  .foldl State.sendIdle_keeps _ _

theorem State.enterReady_keeps (s : State) (im : Image) : Keeps s (s.enterReady im) :=
  .trans (s.startBlocks_keeps im (g := (s.startBlocks im).group) (by rw [s.startBlocks_frame]; exact id))
    (State.beginService_keeps _)

theorem State.applyStaging_keeps (s : State) : Keeps s s.applyStaging := by
  have started := s.startBlocks_keeps s.staging (g := {})
    fun _ => ⟨by decide, by decide, by decide, fun _ => ⟨rfl, rfl⟩⟩
  unfold State.applyStaging
  refine .trans ?_ (State.post_keeps ..)
  simp only
  split
  · exact started
  · exact started.trans (State.beginService_keeps _)

/-! ## Requests -/

theorem State.answer_keeps (s : State) (l : Link) (h : ServiceHead) (code : BitVec 4)
    (r : ServiceResult × List Byte) : Keeps s (s.answer l h code r) := s.replyService_keeps ..

theorem State.change_keeps (s : State) (l : Link) (h : ServiceHead) (code : BitVec 4)
    {run : State → State × ServiceResult × List Byte} (hr : Keeps s (run s).1) :
    Keeps s (s.change l h code run) := by
  unfold State.change
  split
  · exact hr.trans (State.replyService_keeps ..)
  · exact s.replyService_keeps ..

theorem State.stampLevel_keeps (s : State) (v : Valve) (p : Nat) (l : Level) :
    Keeps s (s.stampLevel v p l) := by
  have replaced := s.modValve_keeps v
    (f := fun r => r.setLevel p { l with stamp := nextStamp s.counter }) id id
  exact replaced.trans (.of_same rfl rfl rfl rfl rfl rfl)

theorem State.handChange_keeps (s : State) (v : Valve) (old new : LevelState) :
    Keeps s (s.handChange v old new) := by
  unfold State.handChange
  split
  · exact .refl s
  · exact s.levelChange_keeps ..

theorem State.retireRequest_keeps (s : State) (k : Link) (j p : Byte) :
    Keeps s (s.retireRequest k j p).1 := by
  have uncounted (w : State) (v : Valve) : Keeps w (w.modValve v fun r =>
      { r with monitor := { r.monitor with indicated := r.monitor.indicated - 1 } }) :=
    w.modValve_keeps v id id
  have retired (v : Valve) (p : Nat) : Keeps s (s.retireLevel k v p) := by
    unfold State.retireLevel
    simp only
    refine .trans (.trans ?_ (State.handChange_keeps ..)) (State.settle_keeps _)
    split
    · exact (s.stampLevel_keeps ..).trans (uncounted _ v)
    · exact s.stampLevel_keeps ..
  unfold State.retireRequest
  split
  · exact .refl s
  · split
    · exact .refl s
    · split
      · exact .refl s
      · exact retired ..

theorem State.restoreRequest_keeps (s : State) (j p : Byte) :
    Keeps s (s.restoreRequest j p).1 := by
  unfold State.restoreRequest
  split
  · exact .refl s
  · split
    · exact .refl s
    · split
      · exact ((s.stampLevel_keeps ..).trans (State.handChange_keeps ..)).trans
          (State.settle_keeps _)
      · exact .refl s

theorem State.clearCountsRequest_keeps (s : State) (j p : Byte) :
    Keeps s (s.clearCountsRequest j p).1 := by
  unfold State.clearCountsRequest
  split
  · exact .refl s
  · split
    · exact .refl s
    · exact s.stampLevel_keeps ..

theorem State.configWriteRequest_keeps (s : State) (a n : Byte) (data : Vector Word16 8) :
    Keeps s (s.configWriteRequest a n data).1 := by
  unfold State.configWriteRequest
  split
  · exact .refl s
  · split
    · exact .of_same rfl rfl rfl rfl rfl rfl
    · exact .refl s

theorem State.configStoreRequest_keeps (s : State) : Keeps s s.configStoreRequest.1 := by
  unfold State.configStoreRequest
  split
  · exact .refl s
  · split
    · exact .refl s
    · split
      · exact .of_same rfl rfl rfl rfl rfl rfl
      · exact .refl s

theorem State.configApplyRequest_keeps (s : State) : Keeps s s.configApplyRequest.1 := by
  rcases s.configApplyRequest_cases with e | ⟨-, -, e⟩
  · rw [e]; exact .refl s
  · rw [e]; exact s.applyStaging_keeps

theorem State.serveReset_keeps (s : State) (l : Link) (h : ServiceHead) :
    Keeps s (s.serveReset l h) := by
  unfold State.serveReset
  split
  · split
    · exact s.replyService_keeps ..
    · exact .of_blank rfl rfl State.reset_valve State.reset_link
  · exact s.replyService_keeps ..

/-- An address in range is a cursor in range (R159). -/
theorem addressOf_position {j p : Byte} {v : Valve} {q : Nat} (h : addressOf j p = some (v, q)) :
    1 ≤ q ∧ q ≤ 80 := by
  unfold addressOf at h
  split at h
  · rename_i hp
    simp only [Option.map_eq_some_iff, Prod.mk.injEq] at h
    obtain ⟨-, -, -, rfl⟩ := h
    simpa [inRange] using hp
  · cases h

theorem cursorAt_position (n : Nat) : 1 ≤ (cursorAt n).position ∧ (cursorAt n).position ≤ 80 := by
  unfold cursorAt
  split
  · exact ⟨Nat.le_add_left 1 _, Nat.mod_lt n (by decide)⟩
  · decide

theorem State.serveRequest_keeps (s : State) (l : Link) (h : ServiceHead) (r : Request) :
    Keeps s (s.serveRequest l h r) := by
  have moved {c : Cursor} (hc : 1 ≤ c.position ∧ c.position ≤ 80) : Keeps s (s.setCursor l c) :=
    s.modLink_keeps l fun k => k.moved hc
  cases r with
  | lookUpLevel j p => exact s.answer_keeps ..
  | lookUpValve j => exact s.answer_keeps ..
  | seek j p =>
    unfold State.serveRequest State.serveSeek
    simp only
    split
    · exact s.answer_keeps ..
    · rename_i ha
      exact (moved (addressOf_position ha)).trans (State.answer_keeps ..)
  | walk since =>
    unfold State.serveRequest State.serveWalk
    simp only
    split
    · exact (moved (cursorAt_position _)).trans (State.answer_keeps ..)
    · exact s.answer_keeps ..
  | retire j p => exact s.change_keeps l h _ (s.retireRequest_keeps l j p)
  | restore j p => exact s.change_keeps l h _ (s.restoreRequest_keeps j p)
  | clearCounts j p => exact s.change_keeps l h _ (s.clearCountsRequest_keeps j p)
  | configRead a n => exact s.answer_keeps ..
  | configWrite a n data =>
    exact s.change_keeps l h _ (run := fun s =>
      ((s.configWriteRequest a n data).1, (s.configWriteRequest a n data).2, []))
      (s.configWriteRequest_keeps a n data)
  | configApply =>
    exact s.change_keeps l h _ (run := fun s =>
      (s.configApplyRequest.1, s.configApplyRequest.2, [])) s.configApplyRequest_keeps
  | configStore =>
    exact s.change_keeps l h _ (run := fun s =>
      (s.configStoreRequest.1, s.configStoreRequest.2, [])) s.configStoreRequest_keeps
  | reset => exact s.serveReset_keeps l h

theorem State.receiveBytes_keeps (s : State) (l : Link) (bytes : List Byte) :
    Keeps s (s.receiveBytes l bytes) := by
  unfold State.receiveBytes
  split
  · exact State.receive_keeps (fun w => w.serveOrder_keeps l _) ..
  · split
    · exact State.receive_keeps (fun w => w.serveRequest_keeps l _ _) ..
    · exact State.receive_keeps Keeps.refl ..

end Sys2Proof.Machine
end

section
/-! PROOF. Every command keeps every part of the invariants. -/

namespace Sys2Proof.Machine

open Sys2Proof

/-! ## Every command keeps every part -/

section
variable {s u : State} {t : Instant}

theorem Keeps.of_atTick {f : State → State} (h : s.atTick t f = .next u)
    (hf : Keeps (s.atInstant t) (f (s.atInstant t))) : Keeps s u := by
  rcases State.atTick_next h with rfl | ⟨-, rfl⟩
  · exact .refl u
  · exact (s.atInstant_keeps t).trans hf

theorem State.setDetector_keeps (s : State) (d : Detector) (high : Bool) :
    Keeps s (s.setDetector d high) := .of_same rfl rfl rfl rfl rfl rfl

/-- A command of the reference input moves the input and the detector alone. -/
theorem Keeps.of_inputMoves {high : Bool} {act : Image → State → State}
    (ha : ∀ im w, ∃ d b, act im w = w.setDetector d b) (h : s.inputMoves t high act = .next u) :
    Keeps s u := by
  unfold State.inputMoves at h
  split at h
  · cases h
    exact .of_same rfl rfl rfl rfl rfl rfl
  · refine .of_atTick h ?_
    obtain ⟨d, b, e⟩ := ha _ (s.atInstant t)
    rw [e]
    exact State.setDetector_keeps ..
  · exact .of_atTick h (.of_same rfl rfl rfl rfl rfl rfl)

variable {j : Valve}

theorem Keeps.resetEnd {e : ResetEnd} (h : execResetEnd s e = .next u) : Keeps s u := by
  unfold execResetEnd at h
  split at h
  · split at h
    · cases h
      exact .of_unit nofun rfl rfl rfl rfl rfl
    · cases h
      exact .of_unit nofun rfl rfl rfl rfl rfl
  · cases h
    exact .refl s

theorem Keeps.loadingReadDone {words : Image} (h : execLoadingReadDone t words s = .next u) :
    Keeps s u := by
  refine .of_atTick h ?_
  split
  · split
    · simp only
      split
      · refine .trans ?_ (State.enterReady_keeps _ words)
        exact .of_same rfl rfl rfl rfl rfl rfl
      · exact .of_unit nofun rfl rfl rfl rfl rfl
    · exact .refl _
  · exact .refl _

theorem Keeps.loadingTimeout (h : execLoadingTimeout t s = .next u) : Keeps s u := by
  refine .of_atTick h ?_
  split
  · split
    · exact .of_unit nofun rfl rfl rfl rfl rfl
    · exact .refl _
  · exact .refl _

theorem Keeps.crossingCandidate (h : execCrossingCandidate t s = .next u) : Keeps s u :=
  .of_inputMoves (fun im w => by
    split
    · exact ⟨_, _, rfl⟩
    · exact w.breakLowRun_sets im t) h

theorem Keeps.candidateDropped (h : execCandidateDropped t s = .next u) : Keeps s u :=
  .of_inputMoves (fun im w => by
    split
    · split
      · exact ⟨_, _, rfl⟩
      · exact ⟨_, _, w.setDetector_self⟩
    · exact w.startLowRun_sets t) h

/-- The tracker is none of the parts. -/
theorem State.tracker_keeps (s : State) (tr : Tracker) : Keeps s { s with tracker := tr } :=
  .of_same rfl rfl rfl rfl rfl rfl

theorem State.referAt_keeps (s : State) (im : Image) (t0 : Instant) (p : Nat)
    (f : Tracker → Tracker) : Keeps s (s.referAt im t0 p f) :=
  (s.tracker_keeps _).trans (State.handReference_keeps ..)

theorem State.lockAt_keeps (s : State) (im : Image) (t0 : Instant) (p : Nat) :
    Keeps s (s.lockAt im t0 p) :=
  ((s.tracker_keeps (s.tracker.lock t0 p)).trans (State.post_keeps ..)).trans
    (State.handReference_keeps ..)

theorem State.discardCrossing_keeps (s : State) : Keeps s s.discardCrossing :=
  (s.tracker_keeps { s.tracker with
      disturbances := bump Config.count16 s.tracker.disturbances
      relockRun := if s.tracker.sync = SyncState.holdover then 0 else s.tracker.relockRun }).trans
    (State.post_keeps ..)

/-- A judged crossing is discarded, becomes a reference, or takes the tracker to LOCKED. -/
theorem State.judgeCrossing_keeps (s : State) (im : Image) (t0 : Instant) :
    Keeps s (s.judgeCrossing im t0) := by
  unfold State.judgeCrossing
  simp only
  split
  · split
    · split
      · exact s.referAt_keeps ..
      · split
        · exact s.lockAt_keeps ..
        · exact s.referAt_keeps ..
      all_goals
        split
        · exact s.lockAt_keeps ..
        · exact s.referAt_keeps ..
    · split
      · exact s.discardCrossing_keeps
      · exact s.discardCrossing_keeps
      · exact s.referAt_keeps ..
      · exact s.referAt_keeps ..
  · split
    · exact s.discardCrossing_keeps
    · exact s.discardCrossing_keeps
    · exact s.referAt_keeps ..
    · exact s.referAt_keeps ..

theorem State.synthetic_keeps (s : State) (im : Image) (z : Instant) :
    Keeps s (s.synthetic im z) := by
  unfold State.synthetic
  simp only
  split
  · exact .refl s
  · exact (s.tracker_keeps { s.tracker.refer z .holdover s.tracker.period with
      holdover := 1, relockRun := 0 }).trans (State.post_keeps ..)
  · split
    · exact ((s.tracker_keeps _).trans (State.post_keeps ..)).trans (State.hand_keeps ..)
    · exact s.tracker_keeps _
  · exact s.tracker_keeps _

theorem Keeps.crossingConfirmed (h : execCrossingConfirmed t s = .next u) : Keeps s u := by
  refine .of_atTick h ?_
  split
  · split
    · exact (State.setDetector_keeps ..).trans (State.judgeCrossing_keeps ..)
    · exact .refl _
  · exact .refl _

theorem Keeps.detectorRearm (h : execDetectorRearm t s = .next u) : Keeps s u := by
  refine .of_atTick h ?_
  split
  · split
    · exact State.setDetector_keeps ..
    · exact .refl _
  · exact .refl _

theorem Keeps.deadlineReached (h : execDeadlineReached t s = .next u) : Keeps s u := by
  refine .of_atTick h ?_
  split
  · split
    · exact (State.synthetic_keeps ..).trans (State.handReference_keeps ..)
    · exact .refl _
  · exact .refl _

/-- A take-up in RUNNING schedules in RUNNING; elsewhere it schedules nothing (R28, R33). -/
theorem Keeps.takeUp (h : execTakeUp t j s = .next u) : Keeps s u := by
  refine .of_atTick h ?_
  split
  · exact .refl _
  · rename_i z rest hz
    have taken := (s.atInstant t).takeZero_keeps j hz
    split
    · simp only
      refine .trans ?_ (State.settle_keeps _)
      split
      · rename_i hm
        exact (taken.trans (State.pullIn_keeps _ j)).trans
          (State.scheduleFiring_keeps ((State.pullIn_mode _ j).trans hm) j)
      · exact taken.trans (State.closeAtTakeUp_keeps _ j)
    · exact .refl _

theorem Keeps.firingInstant (h : execFiringInstant t j s = .next u) : Keeps s u := by
  refine .of_atTick h ?_
  split
  · rename_i f hf _
    split
    · exact (State.checkReadiness_keeps hf).trans (State.settle_keeps _)
    · exact .refl _
  · exact .refl _

theorem Keeps.forcedFiring (h : execForcedFiring t j s = .next u) : Keeps s u := by
  refine .of_atTick h ?_
  split
  · split
    · exact ((State.issue_keeps ..).trans (State.post_keeps ..)).trans (State.settle_keeps _)
    · exact .refl _
  · exact .refl _

theorem Keeps.extinctionDeadline (h : execExtinctionDeadline t j s = .next u) : Keeps s u := by
  refine .of_atTick h ?_
  split
  · split
    · have conducts := (s.atInstant t).modValve_keeps j (f := (·.withPhase .conducting)) id id
      exact conducts.trans (State.failCommutation_keeps ..)
    · exact .refl _
  · exact .refl _

/-- A fire message starts no gating and ends none. -/
theorem State.fire_legs (s : State) (k : FireKind) (j : Valve) :
    (s.fire k j).group.legs = s.group.legs := by
  obtain ⟨g, noted, upper⟩ := s.noteUpper_eq j
  rw [s.fire_group, noted]
  exact (congrArg Group.legs upper :)

theorem State.fireLegs_legs (s : State) : s.fireLegs.group.legs = s.group.legs := by
  have fold (js : List Valve) (w : State) :
      (js.foldl (fun w j => w.fire .bypass j) w).group.legs = w.group.legs := by
    induction js generalizing w with
    | nil => rfl
    | cons j js ih => exact (ih _).trans (w.fire_legs .bypass j)
  rcases h : s.group.legs with _ | l
  · unfold State.fireLegs
    rw [h]
    exact h
  · rw [State.fireLegs_some h]
    exact (fold _ _).trans h

/-- A gating that goes on has its next expiry (R135). -/
theorem Keeps.bypassGating (h : execBypassGating t s = .next u) : Keeps s u := by
  refine .of_atTick h ?_
  split
  · rename_i l e hl he
    split
    · simp only
      have legs := (State.fireLegs_legs (s.atInstant t)).trans hl
      refine .trans (.trans (State.fireLegs_keeps _) ?_) (State.settle_keeps _)
      exact State.group_keeps _ rfl fun g => ⟨g.origin, g.legs, by simp [legs], g.uppers⟩
    · exact .refl _
  · exact .refl _

theorem Keeps.channelDown (h : execChannelDown t j s = .next u) : Keeps s u := by
  refine .of_atTick h ?_
  split
  · split
    · have down := (s.atInstant t).modChannel_keeps j (f := fun c => { c with up := false, run := 0 })
        fun c => ⟨nofun, Nat.zero_le _, c.counts⟩
      exact ((down.trans (State.post_keeps ..)).trans (State.hand_keeps ..)).trans
        (State.settle_keeps _)
    · exact .refl _
  · exact .refl _

theorem Keeps.vc12Idle (h : execVc12Idle t j s = .next u) : Keeps s u := by
  refine .of_atTick h ?_
  split
  · split
    · exact State.sendIdle_keeps ..
    · exact .refl _
  · exact .refl _

theorem Keeps.controlLoss (h : execControlLoss t s = .next u) : Keeps s u := by
  refine .of_atTick h ?_
  split
  · have passed : Keeps (s.atInstant t) { s.atInstant t with limitPassed := true } :=
      .of_same rfl rfl rfl rfl rfl rfl
    simp only
    split
    · exact passed
    · exact (passed.trans (State.hand_keeps ..)).trans (State.settle_keeps _)
  · exact .refl _

theorem Keeps.replySent {l : Link} (h : execReplySent t l s = .next u) : Keeps s u := by
  refine .of_atTick h ?_
  split
  · exact .refl _
  · exact .trans ((s.atInstant t).modLink_keeps l fun k => k.replied)
      (.of_same rfl rfl rfl rfl rfl rfl)

theorem Keeps.storeComplete (h : execStoreComplete t s = .next u) : Keeps s u := by
  refine .of_atTick h ?_
  split
  · split
    · exact .of_same rfl rfl rfl rfl rfl rfl
    · exact .refl _
  · exact .refl _

theorem Keeps.storeFailed {why : StoreFault} (h : execStoreFailed t why s = .next u) :
    Keeps s u := by
  refine .of_atTick h ?_
  split
  · split
    · exact .of_same rfl rfl rfl rfl rfl rfl
    · exact .refl _
  · exact .refl _

theorem Keeps.of_request {l : Link} {q : ServiceHead} {r : Request} {bytes : List Byte} {role : Role}
    (h : s.atTick t (State.receive l bytes role (State.serveRequest l q r)) = .next u) : Keeps s u :=
  .of_atTick h (State.receive_keeps (fun w => w.serveRequest_keeps l q r) ..)

end

/-- Every command keeps every part of the invariants. -/
theorem exec_keeps {i : Instr} {s u : State} (h : exec i s = .next u) : Keeps s u := by
  cases i with
  | powerOnReset => cases h; exact .of_blank rfl rfl State.reset_valve State.reset_link
  | resetPin => cases h; exact .of_blank rfl rfl State.reset_valve State.reset_link
  | resetEnd e => exact .resetEnd h
  | loadingReadDone t words => exact .loadingReadDone h
  | loadingTimeout t => exact .loadingTimeout h
  | crossingCandidate t => exact .crossingCandidate h
  | candidateDropped t => exact .candidateDropped h
  | crossingConfirmed t => exact .crossingConfirmed h
  | detectorRearm t => exact .detectorRearm h
  | deadlineReached t => exact .deadlineReached h
  | takeUp t j => exact .takeUp h
  | firingInstant t j => exact .firingInstant h
  | forcedFiring t j => exact .forcedFiring h
  | extinctionDeadline t j => exact .extinctionDeadline h
  | pulseReport t j body => exact .of_atTick h (State.messageArrives_keeps ..)
  | oiuIdle t j body => exact .of_atTick h (State.messageArrives_keeps ..)
  | channelDown t j => exact .channelDown h
  | vc12Idle t j => exact .vc12Idle h
  | bypassGating t => exact .bypassGating h
  | linkSilence t l => exact .of_atTick h (State.judgeSilence_keeps ..)
  | controlLoss t => exact .controlLoss h
  | orderFrame t l f =>
    exact .of_atTick h (State.receive_keeps (fun w => w.serveOrder_keeps l f) ..)
  | replySent t l => exact .replySent h
  | lookUpLevel t l q j p => exact .of_request (r := .lookUpLevel j p) h
  | lookUpValve t l q j => exact .of_request (r := .lookUpValve j) h
  | seek t l q j p => exact .of_request (r := .seek j p) h
  | walk t l q since => exact .of_request (r := .walk since) h
  | retire t l q j p => exact .of_request (r := .retire j p) h
  | restore t l q j p => exact .of_request (r := .restore j p) h
  | clearCounts t l q j p => exact .of_request (r := .clearCounts j p) h
  | configRead t l q a n => exact .of_request (r := .configRead a n) h
  | configWrite t l q a n data => exact .of_request (r := .configWrite a n data) h
  | configApply t l q => exact .of_request (r := .configApply) h
  | configStore t l q => exact .of_request (r := .configStore) h
  | serviceReset t l q => exact .of_request (r := .reset) h
  | storeComplete t => exact .storeComplete h
  | storeFailed t why => exact .storeFailed h
  | lowRunStart t => exact .of_inputMoves (fun _ w => w.startLowRun_sets t) h
  | lowRunBroken t => exact .of_inputMoves (fun im w => w.breakLowRun_sets im t) h
  | messageOfUnknownKind t j msg => exact .of_atTick h (State.messageArrives_keeps ..)
  | discardedFrameArrives t l bytes => exact .of_atTick h (State.receiveBytes_keeps ..)

theorem step_keeps {s u : State} (h : step s = .next u) : Keeps s u := by
  unfold step at h
  split at h
  · cases h
    unfold State.tick
    split
    · exact .refl s
    · exact .of_same rfl rfl rfl rfl rfl rfl
  · rename_i c rest _
    exact .trans (u := { s with pending := rest }) (.of_same rfl rfl rfl rfl rfl rfl) (exec_keeps h)

/-- No command puts an image in force that is not valid (R163, R164, R165). -/
theorem Effect.imageValid {i : Instr} {s u : State} (he : Effect i s u)
    (hv : ∀ im, s.unit = .ready im → imageValid im = true) (im : Image)
    (hu : u.unit = .ready im) : imageValid im = true := by
  cases he with
  | idle hc =>
    obtain ⟨unit, -⟩ := s.linksAfter_keeps i
    exact hv im (by rw [← unit, ← hc.unit, hu])
  | @served t _ hs =>
    obtain ⟨unit, -⟩ := (s.atInstant t).linksAfter_keeps i
    cases hs with
    | kept hc => exact hv im (unit.symm.trans (hc.unit.symm.trans hu))
    | applied valid _ hc =>
      obtain ⟨started, -⟩ := ((s.atInstant t).linksAfter i).applyStaging_started
      rw [hc.unit, started] at hu
      exact UnitState.ready.inj hu ▸ valid
    | reset _ e => subst e; cases hu
  | unready _ h _ => exact absurd hu (h im)
  | starts _ valid h _ => exact UnitState.ready.inj (h.symm.trans hu) ▸ valid
  | detects h _ _ => exact hv im (h.symm.trans hu)
  | @crossing t t0 im' _ _ e =>
    rw [e, (State.judgeCrossing_rest _ im' t0).unit] at hu
    exact hv im hu
  | @deadline t r im' _ _ _ e =>
    rw [e, (State.handReference_rest _ im' _).unit, (State.synthetic_rest _ im' _).unit] at hu
    exact hv im hu

theorem step_imageValid {s u : State} (h : step s = .next u)
    (hv : ∀ im, s.unit = .ready im → imageValid im = true) :
    ∀ im, u.unit = .ready im → imageValid im = true := by
  unfold step at h
  split at h
  · cases h
    unfold State.tick
    split <;> exact hv
  · exact (exec_effect h).imageValid hv

/-- Settles O57, from the parts that every step keeps. -/
theorem stepsKeepModesAndSchedules : Obligations.StepsKeepModesAndSchedules := by
  intro s u inv h
  rw [State.modeInv_iff] at inv ⊢
  have keeps := step_keeps h
  exact ⟨keeps.group inv.1, fun j => keeps.schedules j (inv.2 j)⟩

/-- Settles O58, from the parts that every step keeps; that the working image after the step is valid
puts the latched angles in its range. -/
theorem stepsKeepGuardAndLinesInRange : Obligations.StepsKeepGuardAndLinesInRange := by
  intro s u unit guard line h
  have keeps := step_keeps h
  obtain ⟨g, v, k⟩ := (State.rangesInv_iff unit.valid).1 ⟨guard, line⟩
  exact (State.rangesInv_iff (step_imageValid h unit.valid)).2
    ⟨keeps.guard g, fun j => keeps.valves j (v j), fun l => keeps.links l (k l)⟩

end Sys2Proof.Machine
end

section
/-! PROOF. A valve fired and the causes that its closing hands: the message stays sent, the events stay
posted and the firing stays counted while the causes are taken (R38, R88, R136, R137, assumption 4). -/

namespace Sys2Proof.Machine

open Sys2Proof

/-! ## Events stay posted -/

/-- What is pending of a word stays pending: a word leaves its set with a status frame alone
(R153). -/
structure WordsGrow (s u : State) : Prop where
  pending : ∀ l src bits, s.word l src &&& bits = bits → u.word l src &&& bits = bits

/-- Bits that a word has it keeps when others join them. -/
theorem bits_and_or_of_and {w bits : BitVec 12} (h : w &&& bits = bits) (more : BitVec 12) :
    (w ||| more) &&& bits = bits := by
  refine BitVec.eq_of_getLsbD_eq fun i _ => ?_
  have bit := congrArg (BitVec.getLsbD · i) h
  simp only [BitVec.getLsbD_and, BitVec.getLsbD_or] at bit ⊢
  cases hb : bits.getLsbD i <;> simp_all

theorem bits_or_and_self (w bits : BitVec 12) : (w ||| bits) &&& bits = bits := by
  rw [BitVec.or_comm]
  exact bits_and_or_of_and BitVec.and_self w

namespace WordsGrow

theorem refl (s : State) : WordsGrow s s := ⟨fun _ _ _ => id⟩

theorem trans {s u w : State} (h : WordsGrow s u) (h' : WordsGrow u w) : WordsGrow s w :=
  ⟨fun l src bits => h'.pending l src bits ∘ h.pending l src bits⟩

theorem of_same {s u : State} (h : ∀ l src, u.word l src = s.word l src) : WordsGrow s u :=
  ⟨fun l src bits => by rw [h]; exact id⟩

theorem of_links {s u : State} (linkA : u.linkA = s.linkA) (linkB : u.linkB = s.linkB) :
    WordsGrow s u := of_same fun l src => by
  cases l
  · exact congrArg (·.pendingWord src) linkA
  · exact congrArg (·.pendingWord src) linkB

theorem post {s u : State} (h : WordsGrow s u) (src : Source) (bits : BitVec 12) :
    WordsGrow s (u.post src bits) := by
  refine h.trans ⟨fun l src' more hm => ?_⟩
  rw [State.post_word]
  split
  · rename_i e
    subst e
    exact bits_and_or_of_and hm bits
  · exact hm

theorem setValve {s u : State} (h : WordsGrow s u) (j : Valve) (v : ValveRecord) :
    WordsGrow s (u.setValve j v) := h.trans (of_same (State.word_setValve u j v))

theorem modValve {s u : State} (h : WordsGrow s u) (j : Valve) (f : ValveRecord → ValveRecord) :
    WordsGrow s (u.modValve j f) := h.setValve j _

theorem foldl {α : Type} {f : State → α → State} (hf : ∀ s a, WordsGrow s (f s a))
    (as : List α) (s : State) : WordsGrow s (as.foldl f s) := by
  induction as generalizing s with
  | nil => exact refl s
  | cons a as ih => exact (hf s a).trans (ih _)

end WordsGrow

/-- Posted bits are pending. -/
theorem State.post_posted (s : State) (src : Source) (bits : BitVec 12) (l : Link) :
    (s.post src bits).word l src &&& bits = bits := by
  rw [State.post_word, if_pos rfl]
  exact bits_or_and_self ..

theorem State.levelChange_grow (s : State) (j : Valve) (c : LevelState × LevelState) :
    WordsGrow s (s.levelChange j c) := by
  have tallied (v : ValveRecord) : WordsGrow s ((s.post (.valve j) valveState).setValve j v) :=
    ((WordsGrow.refl s).post ..).setValve j v
  unfold State.levelChange
  simp only
  split
  · exact tallied _
  · split
    · exact ((tallied _).post ..).trans (.of_links rfl rfl)
    · exact (tallied _).post ..

theorem State.closeInterval_grow (s : State) (j : Valve) : WordsGrow s (s.closeInterval j) := by
  unfold State.closeInterval
  refine .modValve (.trans ?_ (.foldl (fun s c => State.levelChange_grow s j c) _ _)) ..
  exact .of_links rfl rfl

theorem State.noteUpper_grow (s : State) (j : Valve) : WordsGrow s (s.noteUpper j) := by
  obtain ⟨g, noted, -⟩ := s.noteUpper_eq j
  rw [noted]
  exact .of_links rfl rfl

theorem State.fireOwn_grow (s : State) (k : FireKind) (j : Valve) :
    WordsGrow s (s.fireOwn k j) := by
  have noted (f : ValveRecord → ValveRecord) :
      WordsGrow s (((s.sendFire j).modValve j f).noteUpper j) := by
    refine .trans ?_ (State.noteUpper_grow _ j)
    exact .of_links rfl rfl
  unfold State.fireOwn
  simp only
  split
  · exact noted _
  · exact ((noted _).modValve ..).trans (State.closeInterval_grow _ j)

theorem State.commutate_grow (s : State) (j : Valve) : WordsGrow s (s.commutate j) := by
  unfold State.commutate
  simp only
  split
  · split
    · split
      · refine .post ?_ ..
        exact .of_links rfl rfl
      · exact (WordsGrow.refl s).setValve ..
    · exact (WordsGrow.refl s).setValve ..
  · exact .refl s

theorem State.fire_grow (s : State) (k : FireKind) (j : Valve) : WordsGrow s (s.fire k j) := by
  rw [State.fire_eq]
  split
  · exact (s.fireOwn_grow k j).trans (State.commutate_grow ..)
  · exact s.fireOwn_grow k j

theorem State.addTrip_grow (s : State) (c : TripCause) : WordsGrow s (s.addTrip c) := by
  unfold State.addTrip
  split
  · exact .refl s
  · refine .post ?_ ..
    exact .of_links rfl rfl

theorem State.enterBlocked_grow (s : State) : WordsGrow s s.enterBlocked := by
  refine .post (u := { s.leaveMode with
    group := s.enterBlocked.group, guard := s.enterBlocked.guard }) ?_ ..
  rw [s.leaveMode_eq]
  exact .of_links rfl rfl

theorem State.refuse_grow (s : State) (r : RefusalReason) : WordsGrow s (s.refuse r) := by
  refine .post ?_ ..
  exact .of_links rfl rfl

theorem State.enterBypass_grow (s : State) : WordsGrow s s.enterBypass := by
  have entered : WordsGrow s s.bypassEntered := .of_links rfl rfl
  have fired := entered.trans (.foldl (fun w j => State.fire_grow w .bypass j) s.bypassOrder _)
  have gated : WordsGrow s s.bypassFired.beginGating := by
    refine .post (.trans fired ?_) ..
    exact .of_links rfl rfl
  rw [s.enterBypass_eq]
  refine gated.trans (.trans ?_ (.foldl State.addTrip_grow _ _))
  exact .of_links rfl rfl

/-! ## The causes taken -/

/-- A valve as the taking of causes at `t` leaves it: its schedule may be cancelled, and it may be
fired BYPASS. -/
structure ValveSettled (t : Instant) (v w : ValveRecord) : Prop where
  schedule : w.schedule = v.schedule ∨ w.schedule = v.cancelled.schedule
  lastFire : v.monitor.lastFire = some t → w.monitor.lastFire = some t
  lastSend : v.channel.lastSend = some t → w.channel.lastSend = some t
  phase : v.monitor.phase = .conducting → w.monitor.phase = .conducting
  counts : ∀ k, k ≠ .bypass → w.firingCount k = v.firingCount k

theorem ValveSettled.refl (t : Instant) (v : ValveRecord) : ValveSettled t v v :=
  ⟨.inl rfl, id, id, id, fun _ _ => rfl⟩

theorem ValveSettled.trans {t : Instant} {v w x : ValveRecord} (h : ValveSettled t v w)
    (h' : ValveSettled t w x) : ValveSettled t v x where
  schedule := by
    rcases h'.schedule with e | e <;> rcases h.schedule with e' | e' <;>
      simp [e, e', ValveRecord.cancelled]
  lastFire := h'.lastFire ∘ h.lastFire
  lastSend := h'.lastSend ∘ h.lastSend
  phase := h'.phase ∘ h.phase
  counts k hk := (h'.counts k hk).trans (h.counts k hk)

theorem ValveSettled.cancelled (t : Instant) (v : ValveRecord) : ValveSettled t v v.cancelled :=
  ⟨.inr rfl, id, id, id, fun k _ => v.cancelled_count k⟩

theorem BypassFired.settled {t : Instant} {v w : ValveRecord} (h : BypassFired t v w) :
    ValveSettled t v w :=
  ⟨.inl h.schedule, fun _ => h.lastFire, fun _ => h.lastSend, fun _ => h.phase,
    fun k hk => (h.counts k).trans (if_neg hk)⟩

theorem State.leaveMode_settled (s : State) (t : Instant) (j : Valve) :
    ValveSettled t (s.valve j) (s.leaveMode.valve j) := by
  rw [s.leaveMode_valve]
  split
  · exact .cancelled ..
  · exact .refl ..

/-- What the taking of causes does: what is sent stays, what is posted stays, each valve is settled, and
in RUNNING, which is never entered, no valve moves. -/
structure Settled (s u : State) : Prop where
  rest : RestKept s u
  sent : ∃ more, u.sent = more ++ s.sent
  words : WordsGrow s u
  valves : ∀ j, ValveSettled s.timebase (s.valve j) (u.valve j)
  running : u.group.mode = .running → s.group.mode = .running ∧ ∀ j, u.valve j = s.valve j

namespace Settled

theorem trans {s u w : State} (h : Settled s u) (h' : Settled u w) : Settled s w where
  rest := h.rest.trans h'.rest
  sent := by
    obtain ⟨m, e⟩ := h.sent
    obtain ⟨m', e'⟩ := h'.sent
    exact ⟨m' ++ m, by rw [e', e, List.append_assoc]⟩
  words := h.words.trans h'.words
  valves j := (h.valves j).trans (h.rest.timebase ▸ h'.valves j)
  running hm :=
    have ⟨hm', same'⟩ := h'.running hm
    have ⟨hm'', same⟩ := h.running hm'
    ⟨hm'', fun j => (same' j).trans (same j)⟩

/-- What moves neither the mode nor a valve. -/
theorem of_valves {s u : State} (rest : RestKept s u) (sent : u.sent = s.sent)
    (words : WordsGrow s u) (mode : u.group.mode = s.group.mode)
    (valves : ∀ j, u.valve j = s.valve j) : Settled s u where
  rest := rest
  sent := ⟨[], sent⟩
  words := words
  valves j := by rw [valves]; exact .refl ..
  running hm := ⟨mode ▸ hm, valves⟩

theorem refl (s : State) : Settled s s := of_valves (.refl s) rfl (.refl s) rfl fun _ => rfl

end Settled

theorem State.addTrip_settled (s : State) (c : TripCause) : Settled s (s.addTrip c) := by
  have added := (s.addTrip_added c).eq
  refine .of_valves (s.addTrip_rest c) ?_ (s.addTrip_grow c) ?_ fun j => ?_ <;> rw [added]
  rfl

theorem State.refuse_settled (s : State) (r : RefusalReason) : Settled s (s.refuse r) :=
  .of_valves (s.refuse_rest r) rfl (s.refuse_grow r) rfl fun _ => rfl

theorem State.enterBlocked_settled (s : State) : Settled s s.enterBlocked where
  rest := s.enterBlocked_rest
  sent := ⟨[], by show s.leaveMode.sent = _; rw [s.leaveMode_eq]; rfl⟩
  words := s.enterBlocked_grow
  valves j := s.leaveMode_settled s.timebase j
  running hm := nomatch hm

theorem State.enterBypass_settled (s : State) : Settled s s.enterBypass where
  rest := s.enterBypass_rest
  sent := ⟨_, s.enterBypass_sent⟩
  words := s.enterBypass_grow
  valves j := by
    by_cases h : j ∈ s.chosenLegs.valves
    · exact (s.leaveMode_settled s.timebase j).trans (s.enterBypass_leg h).settled
    · rw [s.enterBypass_other h]
      exact s.leaveMode_settled s.timebase j
  running hm := by rw [s.enterBypass_group] at hm; cases hm

theorem State.actOnTrip_settled (s : State) (c : TripCause) : Settled s (s.actOnTrip c) := by
  unfold State.actOnTrip
  split
  · exact .refl s
  · exact .refl s
  · exact s.enterBlocked_settled.trans (State.refuse_settled ..)
  · split
    · exact s.enterBypass_settled
    · exact .refl s

theorem State.latch_settled (s : State) (c : TripCause) : Settled s (s.latch c) := by
  unfold State.latch
  split
  · exact .refl s
  · split
    · exact s.addTrip_settled c
    · exact (s.addTrip_settled c).trans (State.actOnTrip_settled ..)

theorem State.settle_settled (s : State) : Settled s s.settle := by
  have taken : Settled s { s with handed := [] } :=
    .of_valves (s.update_rest s.counter s.guard s.group s.tracker s.sent []) rfl
      (.of_links rfl rfl) rfl fun _ => rfl
  have fold (cs : List TripCause) (w : State) : Settled w (cs.foldl State.latch w) := by
    induction cs generalizing w with
    | nil => exact .refl w
    | cons c cs ih => exact (w.latch_settled c).trans (ih _)
  exact taken.trans (fold s.handed _)

/-! ## A firing issued -/

theorem predecessor_ne (j : Valve) : predecessor j ≠ j := by
  revert j; decide

theorem State.commutate_other (s : State) {i j : Valve} (h : i ≠ j) :
    (s.commutate j).valve i = s.valve i := by
  unfold State.commutate State.failCommutation
  simp only
  split
  · split
    · split
      · simp only [State.valve_post, State.modValve_valve, if_neg h]
        rfl
      · exact State.setValve_other _ _ h
    · exact State.setValve_other _ _ h
  · rfl

theorem State.commutate_sent (s : State) (j : Valve) : (s.commutate j).sent = s.sent := by
  unfold State.commutate
  simp only
  split
  · split
    · split <;> rfl
    · rfl
  · rfl

/-- The commutation that a fire message starts is that of another valve (R90). -/
theorem State.fire_own (s : State) (k : FireKind) (j : Valve) :
    (s.fire k j).valve j = (s.fireOwn k j).valve j ∧ (s.fire k j).sent = (s.fireOwn k j).sent := by
  rw [State.fire_eq]
  split
  · exact ⟨State.commutate_other _ (predecessor_ne j).symm, State.commutate_sent ..⟩
  · exact ⟨rfl, rfl⟩

/-- A fire message is a firing of its kind (R38, R88). -/
theorem State.fire_fired (s : State) (k : FireKind) (j : Valve) :
    Fired s (s.fire k j) s.timebase k j := by
  obtain ⟨sent, -, -, -, -, -, phase, lastFire, channel, -⟩ := s.fireOwn_frame k j
  obtain ⟨counts, -⟩ := s.fireOwn_valve k j
  obtain ⟨valve, same⟩ := s.fire_own k j
  rw [Fired, valve, same]
  exact ⟨⟨[], [], sent⟩, lastFire, by rw [channel], phase, (counts k).trans (if_pos rfl)⟩

theorem State.issue_valve (s : State) (k : FireKind) (j : Valve) :
    (s.issue k j).valve j = { (s.fire k j).valve j with
      schedule := { ((s.fire k j).valve j).schedule with fireAt := none, expiry := none } } := by
  unfold State.issue
  rw [State.modValve_valve, if_pos rfl]

/-- Of the schedule a firing counts what is pulled in alone. -/
theorem ValveRecord.firingCount_schedule (v : ValveRecord) {c : Schedule}
    (h : c.pulledIn = v.schedule.pulledIn) (k : FireKind) :
    ({ v with schedule := c } : ValveRecord).firingCount k = v.firingCount k := by
  cases k with
  | pulledIn => exact h
  | _ => rfl

/-- A change of the fired valve's schedule is no part of its firing. -/
theorem Fired.schedule {s u w : State} {t : Instant} {k : FireKind} {j : Valve} {c : Schedule}
    (h : Fired s u t k j) (sent : w.sent = u.sent)
    (valve : w.valve j = { u.valve j with schedule := c })
    (pulledIn : c.pulledIn = (u.valve j).schedule.pulledIn) : Fired s w t k j := by
  rw [Fired, sent, valve, ValveRecord.firingCount_schedule _ pulledIn]
  exact h

theorem Fired.post {s u : State} {t : Instant} {k : FireKind} {j : Valve} (h : Fired s u t k j)
    (src : Source) (bits : BitVec 12) : Fired s (u.post src bits) t k j := h

theorem State.issue_sent (s : State) (k : FireKind) (j : Valve) :
    (s.issue k j).sent = (s.fire k j).sent := by
  unfold State.issue
  rw [State.modValve_sent]

theorem ValveRecord.issued_pulledIn (v : ValveRecord) :
    ({ v.schedule with fireAt := none, expiry := none } : Schedule).pulledIn = v.schedule.pulledIn :=
  rfl

theorem State.issue_fired (s : State) (k : FireKind) (j : Valve) :
    Fired s (s.issue k j) s.timebase k j :=
  (s.fire_fired k j).schedule (s.issue_sent k j) (s.issue_valve k j)
    (ValveRecord.issued_pulledIn _)

/-- An issued firing leaves of the schedule all but its instant, its wait and its count (R30). -/
theorem State.issue_schedule (s : State) (k : FireKind) (j : Valve) :
    ((s.issue k j).valve j).schedule = { (s.valve j).schedule with
      fireAt := none, expiry := none
      pulledIn := ((s.issue k j).valve j).schedule.pulledIn } := by
  obtain ⟨-, -, -, -, -, -, -, -, -, schedule, -⟩ := s.fireOwn_frame k j
  obtain ⟨-, -, -, -, -, -, -, -, -, -, counted⟩ := (s.valve j).countFiring_frame k
  rw [s.issue_valve, (s.fire_own k j).1, schedule, counted]

theorem State.issue_unissued (s : State) (k : FireKind) (j : Valve) :
    (s.issue k j).nothingUnissued j := by
  rw [State.nothingUnissued, s.issue_schedule]
  exact ⟨rfl, rfl⟩

/-- A firing stays one while the causes it handed are taken. -/
theorem Fired.settled {s u w : State} {t : Instant} {k : FireKind} {j : Valve}
    (h : Fired s u t k j) (ht : u.timebase = t) (hk : k ≠ .bypass) (hs : Settled u w) :
    Fired s w t k j := by
  obtain ⟨⟨later, earlier, sent⟩, lastFire, lastSend, phase, count⟩ := h
  obtain ⟨more, sent'⟩ := hs.sent
  have valve := ht ▸ hs.valves j
  exact ⟨⟨more ++ later, earlier, by rw [sent', sent, List.append_assoc]⟩, valve.lastFire lastFire,
    valve.lastSend lastSend, valve.phase phase, (valve.counts k hk).trans count⟩

theorem ValveSettled.unissued {t : Instant} {v w : ValveRecord} (h : ValveSettled t v w)
    (hv : v.schedule.fireAt = none ∧ v.schedule.expiry = none) :
    w.schedule.fireAt = none ∧ w.schedule.expiry = none := by
  rcases h.schedule with e | e
  · rwa [e]
  · rw [e]
    exact ⟨rfl, rfl⟩

end Sys2Proof.Machine
end

section
/-! PROOF. Take-ups, firing instants, quorum waits and extinction deadlines, command by command
(R24, R25, R28 to R33, R92, R95, R99, R100, R114); one tick on an empty queue. -/

namespace Sys2Proof.Machine

open Sys2Proof

/-! ## Ticks and instants -/

theorem reached_iff {now t : Instant} : reached now t = true ↔ now = t ∨ later now t = true := by
  simp [reached]

/-- Settles O2: the queue is empty, and instants are counted modulo 2^32. -/
theorem emptyQueuePassesOneTick : Obligations.EmptyQueuePassesOneTick := by
  refine ⟨fun s hq => ⟨fun hl => ?_, fun c hc => ?_⟩, fun t t' n => ⟨?_, ?_, ?_, reached_iff⟩⟩
  · have tick : s.tick = { s with timebase := s.timebase + 1 } := by
      unfold State.tick
      split
      · exact absurd (by assumption) (hl _)
      · rfl
    rw [← tick, step, hq]
  · have tick : s.tick = s := by rw [State.tick, hc]
    rw [step, hq, tick]
  · simp [after, BitVec.toNat_add]
  · unfold span
    rw [BitVec.toNat_sub]
    have := t.isLt
    omega
  · unfold later
    simp only [Bool.and_eq_true, decide_eq_true_eq]
    omega

/-! ## TAKE_UP -/

/-- What a take-up does before the causes of a closing are taken (R24, R28, R29, R33). -/
def State.takeUp (j : Valve) (z : Instant) (rest : List Instant) (s : State) : State :=
  if s.group.mode = .running then ((s.takeZero j z rest).pullIn j).scheduleFiring j
  else (s.takeZero j z rest).closeAtTakeUp j

theorem exec_takeUp {s : State} (hl : s.live) {t z : Instant} {j : Valve} {rest : List Instant}
    (hz : (s.valve j).schedule.zeros = z :: rest) (ht : reached t z = true) :
    exec (.takeUp t j) s = .next ((s.atInstant t).takeUp j z rest).settle := by
  have zeros : ((s.atInstant t).valve j).schedule.zeros = z :: rest := hz
  simp only [exec, execTakeUp, State.atTick_live hl, zeros, ht, if_true]
  rfl

theorem State.takeZero_eq (s : State) (j : Valve) (z : Instant) (rest : List Instant) :
    s.takeZero j z rest = s.setValve j { s.valve j with schedule := { (s.valve j).schedule with
      zeros := rest, zero := z, alphaEff := s.latchedAngle } } := rfl

/-- The firing that a zero and an angle schedule at a period (R28). -/
theorem State.scheduleFiring_eq {s : State} {j : Valve} {z : Instant} {a p n : Nat}
    (zero : (s.valve j).schedule.zero = z) (angle : (s.valve j).schedule.alphaEff = a)
    (period : s.tracker.period = p) (wait : s.par Par.qwait = n) :
    s.scheduleFiring j = s.setValve j { s.valve j with schedule := { (s.valve j).schedule with
      fireAt := some (after z (roundedQuotient (a * p) 36000))
      deadline := some (after z (roundedQuotient (30000 * p) 36000))
      waitLength := roundedQuotient (n * p) 36000 } } := by
  subst zero angle period wait
  rfl

/-- Scheduling moves neither the queue, nor the zero, nor the angle. -/
theorem State.scheduleFiring_schedule (s : State) (j : Valve) :
    ((s.scheduleFiring j).valve j).schedule = { (s.valve j).schedule with
      fireAt := ((s.scheduleFiring j).valve j).schedule.fireAt
      deadline := ((s.scheduleFiring j).valve j).schedule.deadline
      waitLength := ((s.scheduleFiring j).valve j).schedule.waitLength } := by
  rw [State.scheduleFiring_eq rfl rfl rfl rfl, State.setValve_same]

theorem State.pullIn_none {s : State} {j : Valve} (h : (s.valve j).schedule.fireAt = none) :
    s.pullIn j = s := by
  unfold State.pullIn
  rw [h]
  rfl

theorem State.pullIn_some {s : State} {j : Valve} (h : (s.valve j).schedule.fireAt.isSome) :
    s.pullIn j = (s.issue .pulledIn j).post (.valve j) valveSlip := if_pos h

/-- The zero queue, the zero and the angle of a schedule are those of another. -/
structure Latched (c d : Schedule) : Prop where
  zeros : d.zeros = c.zeros
  zero : d.zero = c.zero
  alphaEff : d.alphaEff = c.alphaEff

theorem State.pullIn_latched (s : State) (j : Valve) :
    Latched (s.valve j).schedule ((s.pullIn j).valve j).schedule := by
  unfold State.pullIn
  split
  · rw [State.valve_post, State.issue_schedule]
    exact ⟨rfl, rfl, rfl⟩
  · exact ⟨rfl, rfl, rfl⟩

theorem State.closeAtTakeUp_latched (s : State) (j : Valve) :
    Latched (s.valve j).schedule ((s.closeAtTakeUp j).valve j).schedule := by
  obtain ⟨-, -, -, -, -, -, -, own, -⟩ := s.closeInterval_frame j
  unfold State.closeAtTakeUp
  split
  · rw [own]
    exact ⟨rfl, rfl, rfl⟩
  · exact ⟨rfl, rfl, rfl⟩

/-- A take-up latches the zero and the angle, whatever else it does (R24, R25). -/
theorem State.takeUp_latched (s : State) (j : Valve) (z : Instant) (rest : List Instant) :
    Latched { zeros := rest, zero := z, alphaEff := s.latchedAngle }
      ((s.takeUp j z rest).valve j).schedule := by
  have taken : Latched { zeros := rest, zero := z, alphaEff := s.latchedAngle }
      ((s.takeZero j z rest).valve j).schedule := by
    rw [s.takeZero_eq, State.setValve_same]
    exact ⟨rfl, rfl, rfl⟩
  unfold State.takeUp
  split
  · obtain ⟨zeros, zero, angle⟩ := State.pullIn_latched (s.takeZero j z rest) j
    rw [State.scheduleFiring_schedule]
    exact ⟨zeros.trans taken.zeros, zero.trans taken.zero, angle.trans taken.alphaEff⟩
  · obtain ⟨zeros, zero, angle⟩ := State.closeAtTakeUp_latched (s.takeZero j z rest) j
    exact ⟨zeros.trans taken.zeros, zero.trans taken.zero, angle.trans taken.alphaEff⟩

theorem ValveSettled.latched {t : Instant} {v w : ValveRecord} (h : ValveSettled t v w) :
    Latched v.schedule w.schedule := by
  rcases h.schedule with e | e <;> rw [e] <;> exact ⟨rfl, rfl, rfl⟩

theorem clamp_eq {x lo hi : Nat} (h : lo ≤ hi) : clamp x lo hi = max lo (min hi x) := by
  unfold clamp
  split
  · omega
  · split <;> omega

theorem State.latchedAngle_ready {s : State} {im : Image} (hu : s.unit = .ready im) :
    s.latchedAngle = clamp (if Par.guard im = 1 ∧ s.group.mode = .running
        ∧ 9000 ≤ s.order.alpha.toNat
      then s.order.alpha.toNat - s.guard.advance else s.order.alpha.toNat)
      (Par.amin im) (Par.amax im) := by
  unfold State.latchedAngle
  simp only [State.par_ready hu]
  split <;> rfl

/-- Settles O12: settling keeps what a take-up has latched. -/
theorem takeUpLatchesTheEffectiveAngle : Obligations.TakeUpLatchesTheEffectiveAngle := by
  intro s t z j rest im hu hv hz ht alpha x
  have bounds := imageValid_angles hv
  have taken := (s.atInstant t).takeUp_latched j z rest
  have kept := ((State.settle_settled ((s.atInstant t).takeUp j z rest)).valves j).latched
  have angle : (s.atInstant t).latchedAngle = max (Par.amin im) (min (Par.amax im) x) :=
    (State.latchedAngle_ready hu).trans (clamp_eq bounds)
  have latched := (kept.alphaEff.trans taken.alphaEff).trans angle
  refine ⟨_, exec_takeUp (State.live_ready hu) hz ht, latched, ?_, ?_,
    kept.zero.trans taken.zero, kept.zeros.trans taken.zeros⟩ <;> rw [latched] <;> omega

theorem State.isLeg_false (s : State) (j : Valve) :
    s.isLeg j = false ↔ ∀ l, s.group.legs = some l → j ∉ l.valves := by
  rw [← Bool.not_eq_true, s.isLeg_iff]
  push Not
  rfl

/-- Settles O13: outside RUNNING a take-up latches, and closes or does not close. -/
theorem takeUpOutsideRunning : Obligations.TakeUpOutsideRunning := by
  intro s t z j rest im hu hm hz ht v s1 closes
  have mode : ¬ (s.atInstant t).group.mode = .running := hm
  have angle : (s.atInstant t).latchedAngle
      = clamp s.order.alpha.toNat (Par.amin im) (Par.amax im) := by
    rw [State.latchedAngle_ready (s := s.atInstant t) hu, if_neg fun h => mode h.2.1]
    rfl
  have taken : (s.atInstant t).takeZero j z rest = s1 := by
    rw [State.takeZero_eq, angle]
    rfl
  have phase : (s1.valve j).monitor.phase = v.monitor.phase := by rw [State.setValve_same]
  have run : exec (.takeUp t j) s = .next (s1.closeAtTakeUp j).settle := by
    rw [exec_takeUp (State.live_ready hu) hz ht, State.takeUp, if_neg mode, taken]
  have closing : ((s1.valve j).monitor.phase = .blocking ∧ (s1.group.mode = .blocked
      ∨ (s1.group.mode = .bypass ∧ s1.isLeg j = false))) ↔ closes := by
    rw [phase, s1.isLeg_false]
    rfl
  refine ⟨fun h => ?_, fun h => ?_⟩
  · rw [run, State.closeAtTakeUp, if_pos (closing.2 h)]
  · rw [run, State.closeAtTakeUp, if_neg (mt closing.1 h), State.settle_nil rfl]

/-- A change of the valve's schedule before its firing is no part of the firing. -/
theorem Fired.before_schedule {s w u : State} {t : Instant} {k : FireKind} {j : Valve} {c : Schedule}
    (h : Fired w u t k j) (sent : w.sent = s.sent)
    (valve : w.valve j = { s.valve j with schedule := c })
    (pulledIn : c.pulledIn = (s.valve j).schedule.pulledIn) : Fired s u t k j := by
  rw [Fired, State.fireSent, sent, valve, ValveRecord.firingCount_schedule _ pulledIn] at h
  exact h

/-- The record and the log that a firing starts from do not depend on the tick it is at. -/
theorem Fired.of_atInstant {s u : State} {t : Instant} {k : FireKind} {j : Valve}
    (h : Fired (s.atInstant t) u t k j) : Fired s u t k j := h

/-- A firing pulled in leaves of the schedule all but its instant, its wait and its count. -/
theorem State.pulledIn_schedule {w pulled : State} {j : Valve}
    (h : pulled = (w.issue .pulledIn j).post (.valve j) valveSlip) :
    (pulled.valve j).schedule = { (w.valve j).schedule with
      fireAt := none, expiry := none, pulledIn := (pulled.valve j).schedule.pulledIn } := by
  rw [h, State.valve_post]
  exact w.issue_schedule ..

/-- A firing pulled in at `w`, the next scheduled, and the causes of the closing taken (R28, R29). -/
theorem State.pulledIn_settled {w pulled next u : State} {j : Valve}
    (hp : pulled = (w.issue .pulledIn j).post (.valve j) valveSlip) {c : Schedule}
    (hn : next = pulled.setValve j { pulled.valve j with schedule := c })
    (hu : u = next.settle) (pulledIn : c.pulledIn = (pulled.valve j).schedule.pulledIn) :
    Fired w u w.timebase .pulledIn j ∧ (∀ l, u.word l (.valve j) &&& valveSlip = valveSlip)
      ∧ RestKept w u ∧ ValveSettled w.timebase { pulled.valve j with schedule := c } (u.valve j)
      ∧ (u.group.mode = .running → u.valve j = { pulled.valve j with schedule := c }) := by
  have valve : next.valve j = { pulled.valve j with schedule := c } := by
    rw [hn, State.setValve_same]
  have rest : RestKept w next := by
    rw [hn, hp]
    exact ((w.issue_rest .pulledIn j).trans (State.post_rest ..)).trans (State.setValve_rest ..)
  have issued : Fired w pulled w.timebase .pulledIn j := by
    rw [hp]
    exact (w.issue_fired .pulledIn j).post ..
  have scheduled : Fired w next w.timebase .pulledIn j :=
    issued.schedule (by rw [hn, State.setValve_sent]) valve pulledIn
  have posted (l : Link) : next.word l (.valve j) &&& valveSlip = valveSlip := by
    rw [hn, State.word_setValve, hp]
    exact State.post_posted ..
  have settled : Settled next u := hu ▸ next.settle_settled
  rw [← valve]
  exact ⟨scheduled.settled rest.timebase nofun settled,
    fun l => settled.words.pending l _ _ (posted l), rest.trans settled.rest,
    rest.timebase ▸ settled.valves j, fun hm => (settled.running hm).2 j⟩

/-- Settles O14: nothing unissued is nothing to pull in; and a firing pulled in is one before the new
cycle is scheduled and the causes of its closing are taken. -/
theorem takeUpInRunningSchedules : Obligations.TakeUpInRunningSchedules := by
  intro s t z j rest im hu hm hz ht p q
  have mode : (s.atInstant t).group.mode = .running := hm
  set a := (s.atInstant t).latchedAngle
  set taken := (s.atInstant t).setValve j { s.valve j with schedule := { (s.valve j).schedule with
    zeros := rest, zero := z, alphaEff := a } } with htaken
  have wait : taken.par Par.qwait = Par.qwait im := State.par_ready hu _
  have record : taken.valve j = { s.valve j with schedule := { (s.valve j).schedule with
      zeros := rest, zero := z, alphaEff := a } } := State.setValve_same ..
  have run : exec (.takeUp t j) s = .next ((taken.pullIn j).scheduleFiring j).settle := by
    rw [exec_takeUp (State.live_ready hu) hz ht, State.takeUp, if_pos mode]
    rfl
  refine ⟨fun hn => ⟨a, ?_⟩, fun hf => ?_⟩
  · have unissued : (taken.valve j).schedule.fireAt = none := by rw [record]; exact hn.1
    have zero : (taken.valve j).schedule.zero = z := by rw [record]
    have angle : (taken.valve j).schedule.alphaEff = a := by rw [record]
    rw [run, State.pullIn_none unissued, State.settle_nil rfl,
      State.scheduleFiring_eq zero angle rfl wait, record, htaken, State.setValve_setValve]
    rfl
  · obtain ⟨pulled, hpulled⟩ : ∃ w, w = (taken.issue .pulledIn j).post (.valve j) valveSlip :=
      ⟨_, rfl⟩
    have unissued : (taken.valve j).schedule.fireAt.isSome := by rw [record]; exact hf
    have core : CoreKept taken pulled :=
      hpulled ▸ (taken.issue_core ..).trans (State.post_core ..)
    have cleared := State.pulledIn_schedule hpulled
    have zero : (pulled.valve j).schedule.zero = z := by rw [cleared, record]
    have angle : (pulled.valve j).schedule.alphaEff = a := by rw [cleared, record]
    have expiry : (pulled.valve j).schedule.expiry = none := by rw [cleared]
    have scheduled : pulled.scheduleFiring j = pulled.setValve j { pulled.valve j with
        schedule := { (pulled.valve j).schedule with
          fireAt := some (after z (q a)), deadline := some (after z (q 30000))
          waitLength := q (Par.qwait im) } } :=
      State.scheduleFiring_eq zero angle (congrArg (·.period) core.tracker)
        ((State.par_eq_of_unit core.unit _).trans wait)
    obtain ⟨u, settled⟩ : ∃ u, u = (pulled.scheduleFiring j).settle := ⟨_, rfl⟩
    obtain ⟨fired, posted, kept, valve, running⟩ :=
      State.pulledIn_settled hpulled scheduled settled rfl
    have issued : Fired s u t .pulledIn j := fired.before_schedule rfl record rfl
    rw [run, State.pullIn_some unissued, ← hpulled, ← settled]
    rw [scheduled] at settled
    refine ⟨u, a, rfl, issued, ?_, posted, ?_, ?_, fun hmode => ?_,
      (State.setValve_rest ..).trans kept⟩
    · intro _ pulled'
      have same : pulled' = pulled := hpulled.symm
      rw [same]
      exact settled
    · exact valve.latched.alphaEff.trans angle
    · rcases valve.schedule with e | e <;> rw [e]
      · exact expiry
      · rfl
    · rw [running hmode]
      exact ⟨rfl, rfl, rfl⟩

/-! ## FIRING_INSTANT, FORCED_FIRING, EXTINCTION_DEADLINE -/

/-- A firing issued, an event posted, and the causes of its closing taken. -/
theorem State.issue_settled {s : State} {k : FireKind} {j : Valve} (hk : k ≠ .bypass) {u : State}
    (h : Settled (s.issue k j) u) :
    Fired s u s.timebase k j ∧ u.nothingUnissued j ∧ RestKept s u :=
  ⟨(s.issue_fired k j).settled (s.issue_rest k j).timebase hk h,
    (h.valves j).unissued (s.issue_unissued k j), (s.issue_rest k j).trans h.rest⟩

/-- A BLOCKING valve short of readiness is held (R99). -/
theorem State.checkReadiness_held {s : State} {j : Valve} (h : (s.valve j).monitor.phase = .blocking
    ∧ (s.valve j).monitor.indicated < s.qv j) (f : Instant) :
    s.checkReadiness j f
      = s.setValve j { s.valve j with schedule := { (s.valve j).schedule with
          expiry := some (after f (s.valve j).schedule.waitLength) } } := if_pos h

theorem State.checkReadiness_fired {s : State} {j : Valve} (h : ¬((s.valve j).monitor.phase = .blocking
    ∧ (s.valve j).monitor.indicated < s.qv j)) (f : Instant) :
    s.checkReadiness j f = s.issue .scheduled j := if_neg h

/-- Settles O15: a hold hands no cause, and a firing stays one while its causes are taken. -/
theorem firingInstantChecksReadiness : Obligations.FiringInstantChecksReadiness := by
  intro s t f j im hu hm hf he ht v short
  have run : exec (.firingInstant t j) s = .next ((s.atInstant t).checkReadiness j f).settle := by
    have fireAt : ((s.atInstant t).valve j).schedule.fireAt = some f := hf
    have expiry : ((s.atInstant t).valve j).schedule.expiry = none := he
    have mode : (s.atInstant t).group.mode = .running := hm
    simp only [exec, execFiringInstant, State.atTick_live (State.live_ready hu), fireAt, expiry, mode,
      ht, and_self, if_true]
  have readiness : (s.atInstant t).qv j = Par.nv j im - Par.rv j im :=
    State.par_ready (s := s.atInstant t) hu _
  refine ⟨fun h => ?_, fun h => ?_⟩
  · rw [run, State.checkReadiness_held (by rw [readiness]; exact h), State.settle_nil rfl]
    rfl
  · rw [run, State.checkReadiness_fired (by rw [readiness]; exact h)]
    have settled := State.settle_settled ((s.atInstant t).issue .scheduled j)
    obtain ⟨fired, unissued, rest⟩ := State.issue_settled (by decide) settled
    exact ⟨_, rfl, rfl, fired.of_atInstant, unissued, rest⟩

theorem State.post_settled (s : State) (src : Source) (bits : BitVec 12) :
    Settled s (s.post src bits) :=
  .of_valves (s.post_rest src bits) rfl ((WordsGrow.refl s).post ..) rfl fun _ => rfl

/-- Settles O16: the firing and the posting both stay while the causes are taken. -/
theorem waitExpiryForcesTheFiring : Obligations.WaitExpiryForcesTheFiring := by
  intro s t e j hl he ht
  have expiry : ((s.atInstant t).valve j).schedule.expiry = some e := he
  have run : exec (.forcedFiring t j) s
      = .next (((s.atInstant t).issue .forced j).post (.valve j) valveForced).settle := by
    simp only [exec, execForcedFiring, State.atTick_live hl, expiry, ht, if_true]
  have posted := State.post_settled ((s.atInstant t).issue .forced j) (.valve j) valveForced
  have settled := State.settle_settled (((s.atInstant t).issue .forced j).post (.valve j) valveForced)
  obtain ⟨fired, unissued, rest⟩ := State.issue_settled (by decide) (posted.trans settled)
  exact ⟨_, run, rfl, fired.of_atInstant, unissued,
    fun l => settled.words.pending l _ _ (State.post_posted ..), rest⟩

/-- A failure of commutation counts, marks the cycle and forces the advance to its limit (R114). -/
theorem State.failCommutation_eq (s : State) (j : Valve) :
    s.failCommutation j = ({ s with
      valves := s.valves.set j { s.valve j with
        commFailures := min 65535 ((s.valve j).commFailures + 1) }
      guard := { s.guard with advance := s.par Par.advmax, mark := true } }).post (.valve j) valveCfail :=
  rfl

/-- Settles O17: the failure follows from the phase alone. -/
theorem deadlineFailsACommutatingValve : Obligations.DeadlineFailsACommutatingValve := by
  intro s t d j im hu hm hd ht v
  have run : exec (.extinctionDeadline t j) s
      = .next (if v.monitor.phase = .commutating
        then ((s.atInstant t).modValve j (·.withPhase .conducting)).failCommutation j
        else s.atInstant t) := by
    have deadline : ((s.atInstant t).valve j).schedule.deadline = some d := hd
    have mode : (s.atInstant t).group.mode = .running := hm
    simp only [exec, execExtinctionDeadline, State.atTick_live (State.live_ready hu), deadline, mode,
      ht, true_and]
    rfl
  rw [run]
  refine ⟨fun h => ?_, fun h => ?_⟩
  · have failed : ((s.atInstant t).modValve j (·.withPhase .conducting)).failCommutation j
        = (({ s.atInstant t with
            valves := (s.valves.set j (v.withPhase .conducting)).set j { v.withPhase .conducting with
              commFailures := min 65535 (v.commFailures + 1) }
            guard := { s.guard with advance := s.par Par.advmax, mark := true } }).post
            (.valve j) valveCfail) := by
      rw [State.failCommutation_eq, State.modValve_valve, if_pos rfl]
      rfl
    rw [if_pos h, failed, Vector.set_set, State.par_ready hu]
    rfl
  · rw [if_neg h]

end Sys2Proof.Machine
end

section
/-! PROOF. A fire message: what goes out and becomes of the fired valve, what of its predecessor, and the
layout of the message (R38, R39, R88 to R90, R114, R132; Message layouts). -/

namespace Sys2Proof.Machine

open Sys2Proof

/-! ## What a closing hands on -/

/-- The margin of a valve whose tally has become `t` (R86). -/
def State.marginAt (s : State) (j : Valve) (t : Tally) : Margin :=
  marginOf t.failed (s.par (Par.rv j))

/-- A change of a level's state posted and tallied, before MARGIN and REDUNDANCY (R60, R85, R86). -/
def State.tallied (j : Valve) (c : LevelState × LevelState) (s : State) : State :=
  let m := (s.valve j).monitor
  let tally := m.tally.move c.1 c.2
  (s.post (.valve j) valveState).setValve j
    { s.valve j with monitor := { m with tally := tally, margin := s.marginAt j tally } }

theorem State.levelChange_eq (s : State) (j : Valve) (c : LevelState × LevelState) :
    let m := (s.valve j).monitor
    let margin := s.marginAt j (m.tally.move c.1 c.2)
    s.levelChange j c = if margin = m.margin then s.tallied j c
      else if margin = .exhausted then
        ((s.tallied j c).post (.valve j) valveMargin).hand .redundancy
      else (s.tallied j c).post (.valve j) valveMargin := rfl

/-- Two states agree in all that changes of valve `j`'s levels read and hand on: the unit, the valve's
tally and margin, the words of its source and the causes handed (R60, R85 to R87). -/
structure TalliedAlike (s x : State) (j : Valve) : Prop where
  unit : x.unit = s.unit
  tally : (x.valve j).monitor.tally = (s.valve j).monitor.tally
  margin : (x.valve j).monitor.margin = (s.valve j).monitor.margin
  words : ∀ l, x.word l (.valve j) = s.word l (.valve j)
  handed : x.handed = s.handed

namespace TalliedAlike

theorem post {s x : State} {j : Valve} (h : TalliedAlike s x j) (bits : BitVec 12) :
    TalliedAlike (s.post (.valve j) bits) (x.post (.valve j) bits) j :=
  ⟨h.unit, h.tally, h.margin, fun l => by simp [h.words], h.handed⟩

theorem hand {s x : State} {j : Valve} (h : TalliedAlike s x j) (c : TripCause) :
    TalliedAlike (s.hand c) (x.hand c) j :=
  ⟨h.unit, h.tally, h.margin, fun l => by simp [h.words], by simp [h.handed]⟩

theorem setValve {s x : State} {j : Valve} (h : TalliedAlike s x j) {v w : ValveRecord}
    (tally : w.monitor.tally = v.monitor.tally) (margin : w.monitor.margin = v.monitor.margin) :
    TalliedAlike (s.setValve j v) (x.setValve j w) j where
  unit := h.unit
  tally := by rw [State.setValve_same, State.setValve_same, tally]
  margin := by rw [State.setValve_same, State.setValve_same, margin]
  words l := by rw [State.word_setValve, State.word_setValve, h.words]
  handed := h.handed

theorem levelChange {s x : State} {j : Valve} (h : TalliedAlike s x j)
    (c : LevelState × LevelState) : TalliedAlike (s.levelChange j c) (x.levelChange j c) j := by
  have judged (t : Tally) : x.marginAt j t = s.marginAt j t := by
    unfold State.marginAt
    rw [State.par_eq_of_unit h.unit]
  have tallied : TalliedAlike (s.tallied j c) (x.tallied j c) j :=
    (h.post valveState).setValve (congrArg (·.move c.1 c.2) h.tally) (by simp only [h.tally, judged])
  rw [State.levelChange_eq, State.levelChange_eq, h.tally, judged, h.margin]
  by_cases unmoved : s.marginAt j ((s.valve j).monitor.tally.move c.1 c.2)
      = (s.valve j).monitor.margin
  · rwa [if_pos unmoved, if_pos unmoved]
  · rw [if_neg unmoved, if_neg unmoved]
    split
    · exact (tallied.post valveMargin).hand .redundancy
    · exact tallied.post valveMargin

theorem foldl {s x : State} {j : Valve} (h : TalliedAlike s x j)
    (cs : List (LevelState × LevelState)) :
    TalliedAlike (cs.foldl (State.levelChange j) s) (cs.foldl (State.levelChange j) x) j := by
  induction cs generalizing s x with
  | nil => exact h
  | cons c cs ih => exact ih (h.levelChange c)

theorem modValve_right {s x : State} {j : Valve} (h : TalliedAlike s x j)
    {f : ValveRecord → ValveRecord} (tally : (f (x.valve j)).monitor.tally = (x.valve j).monitor.tally)
    (margin : (f (x.valve j)).monitor.margin = (x.valve j).monitor.margin) :
    TalliedAlike s (x.modValve j f) j where
  unit := h.unit
  tally := by rw [State.modValve_valve, if_pos rfl, tally, h.tally]
  margin := by rw [State.modValve_valve, if_pos rfl, margin, h.margin]
  words l := by rw [State.word_modValve, h.words]
  handed := h.handed

/-- The counter and the records replaced at the beginning of a closing (R69). -/
theorem reviewed {s x : State} {j : Valve} (h : TalliedAlike s x j) (c : Nat) (ls : List Level) :
    TalliedAlike (({ s with counter := c } : State).setValve j { s.valve j with levels := ls })
      (({ x with counter := c } : State).setValve j { x.valve j with levels := ls }) j := by
  have counted : TalliedAlike { s with counter := c } { x with counter := c } j :=
    ⟨h.unit, h.tally, h.margin, h.words, h.handed⟩
  refine counted.setValve ?_ ?_
  · exact h.tally
  · exact h.margin

/-- Both counts cleared at the end of a closing (R72). -/
theorem cleared {s x : State} {j : Valve} (h : TalliedAlike s x j) :
    let clear (v : ValveRecord) : ValveRecord :=
      { v with monitor := { v.monitor with indicated := 0, distinctPfi := 0 } }
    TalliedAlike (s.modValve j clear) (x.modValve j clear) j :=
  h.setValve h.tally h.margin

/-- Valves that agree in their records and in their indicated count close alike under one counter. -/
theorem closeInterval {s x : State} {j : Valve} (h : TalliedAlike s x j)
    (counter : x.counter = s.counter) (levels : (x.valve j).levels = (s.valve j).levels)
    (indicated : (x.valve j).monitor.indicated = (s.valve j).monitor.indicated) :
    TalliedAlike (s.closeInterval j) (x.closeInterval j) j := by
  have par (f : Image → Nat) : x.par f = s.par f := State.par_eq_of_unit h.unit f
  have qv : x.qv j = s.qv j := par _
  unfold State.closeInterval
  simp only [par, qv, counter, levels, indicated]
  exact ((h.reviewed _ _).foldl _).cleared

end TalliedAlike

/-! ## The fired valve -/

/-- The record of a valve to which a message of kind `k` has gone out at `t`, before its phase moves
(R38, R88). -/
def ValveRecord.messaged (v : ValveRecord) (k : FireKind) (t : Instant) : ValveRecord :=
  let c := (v.withLastSend t).countFiring k
  { c with monitor := { c.monitor with lastFire := some t } }

/-- A fire message before the phase of its valve moves (R38, R88, R132). -/
def State.messaged (k : FireKind) (j : Valve) (s : State) : State :=
  { s with
    valves := s.valves.set j ((s.valve j).messaged k s.timebase)
    sent := s.fireSent s.timebase j :: s.sent
    group := (s.noteUpper j).group }

/-- Of the record a message moves the counts, the last fire instant and the last-send time alone. -/
theorem ValveRecord.messaged_frame (v : ValveRecord) (k : FireKind) (t : Instant) :
    let w := v.messaged k t
    w.levels = v.levels ∧ w.lastGamma = v.lastGamma ∧ w.commFailures = v.commFailures
    ∧ w.monitor.phase = v.monitor.phase ∧ w.monitor.tally = v.monitor.tally
    ∧ w.monitor.margin = v.monitor.margin ∧ w.monitor.indicated = v.monitor.indicated
    ∧ w.monitor.distinctPfi = v.monitor.distinctPfi
    ∧ w.monitor.blockBack = v.monitor.blockBack := by
  cases k <;> exact ⟨rfl, rfl, rfl, rfl, rfl, rfl, rfl, rfl, rfl⟩

@[simp] theorem State.messaged_valve (s : State) (k : FireKind) (j : Valve) :
    (s.messaged k j).valve j = (s.valve j).messaged k s.timebase :=
  s.setValve_same j _

theorem State.messaged_alike (s : State) (k : FireKind) (j : Valve) :
    TalliedAlike s (s.messaged k j) j := by
  obtain ⟨-, -, -, -, tally, margin, -⟩ := (s.valve j).messaged_frame k s.timebase
  exact ⟨rfl, by rw [State.messaged_valve, tally], by rw [State.messaged_valve, margin],
    fun l => by cases l <;> rfl, rfl⟩

theorem State.fireOwn_eq (s : State) (k : FireKind) (j : Valve) :
    s.fireOwn k j = if (s.valve j).monitor.phase = .conducting then s.messaged k j
      else ((s.messaged k j).modValve j (·.withPhase .conducting)).closeInterval j := by
  have counted : (s.sendFire j).modValve j (fun v =>
      { v.countFiring k with monitor := { (v.countFiring k).monitor with
        lastFire := some s.timebase } })
      = { s with
        valves := s.valves.set j ((s.valve j).messaged k s.timebase)
        sent := s.fireSent s.timebase j :: s.sent } := by
    unfold State.modValve
    rw [State.sendFire_valve, if_pos rfl]
    exact State.setValve_setValve _ j _ _
  have noted : ((s.sendFire j).modValve j fun v =>
      { v.countFiring k with monitor := { (v.countFiring k).monitor with
        lastFire := some s.timebase } }).noteUpper j = s.messaged k j := by
    rw [counted]
    unfold State.messaged State.noteUpper
    by_cases blocked : s.group.mode = .blocked
    · rw [if_pos blocked, if_pos blocked]
    · rw [if_neg blocked, if_neg blocked]
  obtain ⟨-, -, -, phase, -⟩ := (s.valve j).messaged_frame k s.timebase
  unfold State.fireOwn
  simp only [noted, State.messaged_valve, phase]

/-- No firing measures a margin, fails a commutation of its own valve or moves its Bj (R38). -/
theorem State.fireOwn_kept (s : State) (k : FireKind) (j : Valve) :
    let w := (s.fireOwn k j).valve j
    let v := s.valve j
    w.monitor.blockBack = v.monitor.blockBack ∧ w.lastGamma = v.lastGamma
      ∧ w.commFailures = v.commFailures := by
  obtain ⟨-, gamma, failures, -, -, -, -, -, back⟩ := (s.valve j).messaged_frame k s.timebase
  intro w v
  rw [show w = (s.fireOwn k j).valve j from rfl, s.fireOwn_eq]
  split
  · rw [State.messaged_valve]
    exact ⟨back, gamma, failures⟩
  · obtain ⟨-, -, -, -, -, -, -, own, -⟩ :=
      ((s.messaged k j).modValve j (·.withPhase .conducting)).closeInterval_frame j
    rw [State.modValve_valve, if_pos rfl, State.messaged_valve] at own
    rw [own]
    exact ⟨back, gamma, failures⟩

/-- A fire message to a CONDUCTING valve hands on nothing of its interval (R88). -/
theorem State.fireOwn_conducting {s : State} {j : Valve}
    (h : (s.valve j).monitor.phase = .conducting) (k : FireKind) :
    TalliedAlike s (s.fireOwn k j) j := by
  rw [s.fireOwn_eq, if_pos h]
  exact s.messaged_alike k j

/-- A fire message to any other valve hands on what the closing of its interval does (R88, R95). -/
theorem State.fireOwn_closes {s : State} {j : Valve}
    (h : (s.valve j).monitor.phase ≠ .conducting) (k : FireKind) :
    TalliedAlike (s.closeInterval j) (s.fireOwn k j) j := by
  obtain ⟨levels, -, -, -, -, -, indicated, -⟩ := (s.valve j).messaged_frame k s.timebase
  rw [s.fireOwn_eq, if_neg h]
  refine ((s.messaged_alike k j).modValve_right rfl rfl).closeInterval rfl ?_ ?_
  · rw [State.modValve_valve, if_pos rfl, State.messaged_valve]
    exact levels
  · rw [State.modValve_valve, if_pos rfl, State.messaged_valve]
    exact indicated

theorem upperOfY_or (j : Valve) (last : Option Upper) : (upperOfY j).or last
    = if j = 0 then some .one else if j = 4 then some .three else if j = 8 then some .five
      else last := by
  rcases j with ⟨j, hj⟩
  interval_cases j <;> rfl

theorem upperOfD_or (j : Valve) (last : Option Upper) : (upperOfD j).or last
    = if j = 1 then some .one else if j = 5 then some .three else if j = 9 then some .five
      else last := by
  rcases j with ⟨j, hj⟩
  interval_cases j <;> rfl

/-- Outside BLOCKED an upper valve is noted for its bridge, by its number in firing order (R132). -/
theorem State.noteUpper_numbers (s : State) (j : Valve) : (s.noteUpper j).group = { s.group with
    lastUpperY := if s.group.mode = .blocked then s.group.lastUpperY
      else if j = 0 then some .one else if j = 4 then some .three
      else if j = 8 then some .five else s.group.lastUpperY
    lastUpperD := if s.group.mode = .blocked then s.group.lastUpperD
      else if j = 1 then some .one else if j = 5 then some .three
      else if j = 9 then some .five else s.group.lastUpperD } := by
  by_cases blocked : s.group.mode = .blocked
  · rw [if_pos blocked, if_pos blocked, State.noteUpper, if_pos blocked]
  · rw [if_neg blocked, if_neg blocked, State.noteUpper_group blocked, upperOfY_or, upperOfD_or]

/-! ## The predecessor -/

/-- A valve that does not conduct is left to itself (R90). -/
theorem State.commutate_idle {s : State} {i : Valve}
    (h : (s.valve i).monitor.phase ≠ .conducting) : s.commutate i = s := if_neg h

/-- A CONDUCTING valve whose Dj has been reached fails at once (R90, R114). -/
theorem State.commutate_fails {s : State} {i : Valve} {d : Instant}
    (h : (s.valve i).monitor.phase = .conducting) (hd : (s.valve i).schedule.deadline = some d)
    (hr : reached s.timebase d = true) : s.commutate i = s.failCommutation i := by
  unfold State.commutate
  simp only [h, hd, hr, if_true]

/-- A CONDUCTING valve starts to commutate before its Dj (R90). -/
theorem State.commutate_starts {s : State} {i : Valve}
    (h : (s.valve i).monitor.phase = .conducting)
    (hd : ∀ d, (s.valve i).schedule.deadline = some d → reached s.timebase d = false) :
    s.commutate i = s.setValve i ((s.valve i).withPhase .commutating) := by
  unfold State.commutate
  cases deadline : (s.valve i).schedule.deadline with
  | none => simp only [h, deadline, if_true]
  | some d => simp [h, deadline, hd d deadline]

/-- What a commutation of valve `i` can move: the record of that valve, the guard, and the words of
that source (R90, R114). -/
structure Commutated (s u : State) (i : Valve) : Prop where
  eq : u = { s with valves := u.valves, guard := u.guard, linkA := u.linkA, linkB := u.linkB }
  others : ∀ i', i' ≠ i → u.valve i' = s.valve i'
  words : WordsKept s u (.valve i)

theorem Commutated.refl (s : State) (i : Valve) : Commutated s s i :=
  ⟨rfl, fun _ _ => rfl, fun _ _ _ => rfl⟩

theorem State.commutate_commutated (s : State) (i : Valve) : Commutated s (s.commutate i) i := by
  have started (w : ValveRecord) : Commutated s (s.setValve i w) i :=
    ⟨rfl, fun _ => State.setValve_other s w, fun _ _ _ => State.word_setValve ..⟩
  have failed : Commutated s (s.failCommutation i) i :=
    ⟨rfl, fun i' h => State.setValve_other s _ h, fun l src h => by
      rw [State.failCommutation_eq, State.post_word, if_neg h]
      cases l <;> rfl⟩
  unfold State.commutate
  simp only
  split
  · split
    · split
      · exact failed
      · exact started _
    · exact started _
  · exact .refl s i

/-- A fire message is its own valve's part and the commutation of the predecessor (R90). -/
theorem State.fire_commutated (s : State) (k : FireKind) (j : Valve) :
    Commutated (s.fireOwn k j) (s.fire k j) (predecessor j) := by
  rw [State.fire_eq]
  split
  · exact State.commutate_commutated ..
  · exact .refl ..

theorem State.fireOwn_mode (s : State) (k : FireKind) (j : Valve) :
    (s.fireOwn k j).group.mode = s.group.mode := by
  obtain ⟨-, -, -, -, group, -⟩ := s.fireOwn_frame k j
  rw [group, State.noteUpper_mode]

theorem State.fireOwn_predecessor (s : State) (k : FireKind) (j : Valve) :
    (s.fireOwn k j).valve (predecessor j) = s.valve (predecessor j) := by
  obtain ⟨-, -, -, -, -, others, -⟩ := s.fireOwn_frame k j
  exact others _ (predecessor_ne j)

/-- Outside RUNNING, or where the predecessor does not conduct, no commutation starts (R90). -/
theorem State.fire_alone {s : State} {j : Valve} (h : s.group.mode ≠ .running
    ∨ (s.valve (predecessor j)).monitor.phase ≠ .conducting) (k : FireKind) :
    s.fire k j = s.fireOwn k j := by
  rw [State.fire_eq, State.fireOwn_mode]
  rcases h with mode | phase
  · rw [if_neg mode]
  · rw [State.commutate_idle (by rwa [State.fireOwn_predecessor]), ite_self]

theorem State.fire_running {s : State} (h : s.group.mode = .running) (k : FireKind) (j : Valve) :
    s.fire k j = (s.fireOwn k j).commutate (predecessor j) := by
  rw [State.fire_eq, State.fireOwn_mode, if_pos h]

/-- In RUNNING a CONDUCTING predecessor past its Dj fails (R90, R114). -/
theorem State.fire_fails {s : State} {j : Valve} {d : Instant} (hm : s.group.mode = .running)
    (hp : (s.valve (predecessor j)).monitor.phase = .conducting)
    (hd : (s.valve (predecessor j)).schedule.deadline = some d)
    (hr : reached s.timebase d = true) (k : FireKind) :
    s.fire k j = (s.fireOwn k j).failCommutation (predecessor j) := by
  rw [State.fire_running hm]
  rw [← s.fireOwn_predecessor k] at hp hd
  rw [← (s.fireOwn_rest k j).timebase] at hr
  exact State.commutate_fails hp hd hr

/-- In RUNNING a CONDUCTING predecessor before its Dj starts to commutate (R90). -/
theorem State.fire_starts {s : State} {j : Valve} (hm : s.group.mode = .running)
    (hp : (s.valve (predecessor j)).monitor.phase = .conducting)
    (hd : ∀ d, (s.valve (predecessor j)).schedule.deadline = some d →
      reached s.timebase d = false) (k : FireKind) :
    s.fire k j = (s.fireOwn k j).setValve (predecessor j)
      ((s.valve (predecessor j)).withPhase .commutating) := by
  rw [State.fire_running hm]
  rw [← s.fireOwn_predecessor k] at hp hd ⊢
  rw [← (s.fireOwn_rest k j).timebase] at hd
  exact State.commutate_starts hp hd

theorem predecessor_add (j : Valve) : ((predecessor j).val + 4) % 12 = j.val := by
  revert j; decide

theorem valve_source_ne {i j : Valve} (h : i ≠ j) : Source.valve i ≠ Source.valve j :=
  fun e => h (Source.valve.inj e)

/-- Settles O18: what a message does to its own valve and what the commutation of the predecessor does
touch different valves, and only the latter moves the guard. -/
theorem fireMessageActsOnItsValve : Obligations.FireMessageActsOnItsValve := by
  intro s k j u v w i
  obtain ⟨sent, guard, tracker, choices, group, others, phase, lastFire, channel, schedule, words, -⟩ :=
    s.fireOwn_frame k j
  obtain ⟨counts, conducting, closing⟩ := s.fireOwn_valve k j
  obtain ⟨blockBack, gamma, failures⟩ := s.fireOwn_kept k j
  obtain ⟨-, -, -, -, -, -, -, -, -, -, counted⟩ := v.countFiring_frame k
  have after : Commutated (s.fireOwn k j) u i := s.fire_commutated k j
  have apart : Source.valve j ≠ .valve i := valve_source_ne (predecessor_ne j).symm
  have own : w = (s.fireOwn k j).valve j := after.others j (predecessor_ne j).symm
  have ownWord (l : Link) : u.word l (.valve j) = (s.fireOwn k j).word l (.valve j) :=
    after.words l _ apart
  have before : (s.fireOwn k j).valve i = s.valve i := s.fireOwn_predecessor k j
  have beforeWord (l : Link) : (s.fireOwn k j).word l (.valve i) = s.word l (.valve i) :=
    words l _ apart.symm
  have counter : u.counter = (s.fireOwn k j).counter := by rw [after.eq]
  have handed : u.handed = (s.fireOwn k j).handed := by rw [after.eq]
  refine ⟨predecessor_add j, ?sent, own ▸ channel, own ▸ lastFire, own ▸ phase, own ▸ counts, ?schedule,
    own ▸ blockBack, own ▸ gamma, own ▸ failures, fun hp => ?conducting, fun hp => ?closing, ?group,
    fun i' hj hi => ?others, fun hm hp => ⟨?fails, fun hd => ?starts⟩, fun alone => ?alone,
    fun l src hj hi => (after.words l src hi).trans (words l src hj), ?tracker, ?choices,
    s.fire_rest k j⟩
  case sent => rw [after.eq]; exact sent
  case schedule => rw [own, schedule]; exact counted
  case conducting =>
    obtain ⟨levels, tally, indicated, distinct, still⟩ := conducting hp
    have alike := State.fireOwn_conducting hp k
    rw [own]
    exact ⟨levels, tally, alike.margin, indicated, distinct, counter.trans still,
      handed.trans alike.handed, fun l => (ownWord l).trans (alike.words l)⟩
  case closing =>
    obtain ⟨levels, stamped, indicated, distinct⟩ := closing hp
    have alike := State.fireOwn_closes hp k
    rw [own]
    exact ⟨levels, counter.trans stamped, indicated, distinct, alike.tally, alike.margin,
      handed.trans alike.handed, fun l => (ownWord l).trans (alike.words l)⟩
  case group =>
    rw [after.eq]
    exact group.trans (s.noteUpper_numbers j)
  case others =>
    by_cases h : i' = i
    · have alone := hi.imp_right fun apart => apart.resolve_left fun n => n h
      rw [h, show u = _ from State.fire_alone alone k]
      exact before
    · exact (after.others i' h).trans (others i' hj)
  case fails =>
    rintro ⟨d, hd, hr⟩
    have failed : u = (s.fireOwn k j).failCommutation i := State.fire_fails hm hp hd hr k
    rw [State.failCommutation_eq, before, guard, (s.fireOwn_rest k j).par] at failed
    refine ⟨?_, by rw [failed]; rfl, fun l => ?_⟩
    · rw [failed]
      exact State.setValve_same _ i _
    · rw [failed, State.post_word, if_pos rfl, ← beforeWord]
      cases l <;> rfl
  case starts =>
    have started : u = (s.fireOwn k j).setValve i ((s.valve i).withPhase .commutating) :=
      State.fire_starts hm hp hd k
    rw [started]
    exact ⟨State.setValve_same .., guard, fun l => (State.word_setValve ..).trans (beforeWord l)⟩
  case alone =>
    rw [show u = _ from State.fire_alone alone k]
    exact ⟨guard, beforeWord⟩
  case tracker => rw [after.eq]; exact tracker
  case choices => rw [after.eq]; exact choices

/-! ## The FIRE message (R38, R39, Message layouts) -/

/-- Bit by bit, the mask of a valve: position p at bit 80 − p (R39). -/
theorem fireMask_position {levels : List Level} {p : Nat} (hp : 1 ≤ p) (hp' : p ≤ 80) :
    (fireMask levels).getLsbD (80 - p) = true ↔
      ∃ l, levels[p - 1]? = some l ∧ l.state ≠ .retired ∧ l.state ≠ .absent := by
  have place : 80 - 1 - (80 - p) = p - 1 := by omega
  rw [fireMask, maskFrom_getLsbD 80 le_rfl, place]
  exact and_iff_right (by omega)

/-- Position p stands in byte floor((p − 1) / 8) of the mask as sent, at bit 7 − ((p − 1) mod 8). -/
theorem maskByte_position (mask : BitVec 80) {p : Nat} (hp : 1 ≤ p) (hp' : p ≤ 80) :
    (mask.extractLsb' (72 - 8 * ((p - 1) / 8)) 8).getLsbD (7 - (p - 1) % 8)
      = mask.getLsbD (80 - p) := by
  have place : 72 - 8 * ((p - 1) / 8) + (7 - (p - 1) % 8) = 80 - p := by omega
  rw [BitVec.getLsbD_extractLsb', place, decide_eq_true (by omega), Bool.true_and]

/-- A FIRE message before its CRC: kind, timebase, mask. -/
def fireBody (t : Instant) (mask : BitVec 80) : List Byte :=
  0x01#8 :: (bytes4 t ++ (List.range 10).map fun i => mask.extractLsb' (72 - 8 * i) 8)

theorem fireBody_length (t : Instant) (mask : BitVec 80) : (fireBody t mask).length = 15 := rfl

theorem fireMessage_eq (t : Instant) (mask : BitVec 80) :
    fireMessage t mask = fireBody t mask ++ bytes2 (crc16 (fireBody t mask)) := rfl

theorem fireMessage_maskByte (t : Instant) (mask : BitVec 80) {i : Nat} (hi : i < 10) :
    (fireMessage t mask)[5 + i]? = some (mask.extractLsb' (72 - 8 * i) 8) := by
  rw [fireMessage_eq, List.getElem?_append_left (by rw [fireBody_length]; omega)]
  rw [show fireBody t mask = (0x01#8 :: bytes4 t)
    ++ (List.range 10).map fun i => mask.extractLsb' (72 - 8 * i) 8 from rfl,
    List.getElem?_append_right (by simp)]
  simp [hi]

/-- Settles O19, by the bits of the mask and the bytes that carry them. -/
theorem fireMaskHoldsTheInstalledNotRetired : Obligations.FireMaskHoldsTheInstalledNotRetired := by
  intro s j t p hp hp' mask
  refine ⟨?_, ⟨rfl, rfl, fun b hb => ?_, ?_⟩, fun k => ?_⟩
  · rw [show mask = fireMask _ from rfl, fireMask_position hp hp']
    constructor
    · rintro ⟨l, hl, retired, absent⟩
      rw [ValveRecord.level_eq hp hl]
      obtain ⟨inside, -⟩ := List.getElem?_eq_some_iff.1 hl
      exact ⟨by omega, retired, absent⟩
    · rintro ⟨-, retired, absent⟩
      obtain ⟨-, -, installed⟩ := ValveRecord.installed absent
      exact ⟨_, installed, retired, absent⟩
  · rw [fireMessage_maskByte t mask (by omega)] at hb
    rw [← Option.some.inj hb, maskByte_position mask hp hp']
  · have body : (fireMessage t mask).take 15 = fireBody t mask := rfl
    rw [body]
    rfl
  · obtain ⟨sent, -⟩ := s.fireOwn_frame k j
    exact (s.fire_own k j).2.trans sent

end Sys2Proof.Machine
end

section
/-! PROOF. Messages on a valve channel: their checks, what a discarded and what a valid one does, and the
timers of a channel (R37, R40 to R44, R46; Message layouts). -/

namespace Sys2Proof.Machine

open Sys2Proof

/-! ## The checks of a message (R41) -/

/-- The four bytes of a word put together again. -/
theorem bytes4_append (w : Instant) :
    (w.extractLsb' 24 8 ++ w.extractLsb' 16 8 ++ w.extractLsb' 8 8 ++ w.extractLsb' 0 8
      : BitVec (8 + 8 + 8 + 8)) = w := by
  rw [BitVec.extractLsb'_append_extractLsb'_eq_extractLsb' (by decide : 24 = 16 + 8),
    BitVec.extractLsb'_append_extractLsb'_eq_extractLsb' (by decide : 16 = 8 + 8),
    BitVec.extractLsb'_append_extractLsb'_eq_extractLsb' (by decide : 8 = 0 + 8)]
  exact BitVec.extractLsb'_eq_self

/-- A CRC equals two bytes put together exactly when those are its bytes. -/
theorem bytes2_eq_iff (w : Word16) (hi lo : Byte) : bytes2 w = [hi, lo] ↔ w = hi ++ lo := by
  constructor
  · intro h
    obtain ⟨high, low⟩ := List.cons.inj h
    rw [← high, ← (List.cons.inj low).1]
    exact (bytes2_append w).symm
  · rintro rfl
    rw [bytes2, append_high, append_low]

theorem readReport_eleven (p n w1 g w2 s3 s2 s1 s0 hi lo : Byte) :
    readReport [p, n, w1, g, w2, s3, s2, s1, s0, hi, lo]
      = if bytes2 (crc16 [0x81#8, p, n, w1, g, w2, s3, s2, s1, s0]) = [hi, lo] then
          some { position := p.toNat, count := n.toNat, width1 := w1.toNat, gap := g.toNat
                 width2 := w2.toNat, stamp := s3 ++ s2 ++ s1 ++ s0 }
        else none := by
  simp only [bytes2_eq_iff]
  rfl

/-- The body of a PULSE REPORT is read when it has 11 bytes and its CRC is that of what stands before
it (R41). -/
theorem readReport_isSome (body : List Byte) : (readReport body).isSome ↔
    body.length = 11 ∧ bytes2 (crc16 (0x81#8 :: body.take 9)) = body.drop 9 := by
  by_cases length : body.length = 11
  · match body, length with
    | [p, n, w1, g, w2, s3, s2, s1, s0, hi, lo], _ =>
      rw [readReport_eleven]
      simp
  · refine iff_of_false (fun h => length ?_) (fun h => length h.1)
    unfold readReport at h
    split at h
    · rfl
    · cases h

/-- The body of an OIU IDLE passes when it is the CRC of its kind (R41). -/
theorem readOiuIdle_iff (body : List Byte) :
    readOiuIdle body = true ↔ bytes2 (crc16 [0x82#8]) = body := by
  constructor
  · intro h
    unfold readOiuIdle at h
    split at h
    · exact (bytes2_eq_iff ..).2 (beq_iff_eq.1 h)
    · cases h
  · rintro rfl
    exact beq_iff_eq.2 (bytes2_append _).symm

/-- A message is valid when it has the kind, the length and the CRC of a PULSE REPORT or of an OIU IDLE
(R41). -/
theorem readMessage_isSome (msg : List Byte) : (readMessage msg).isSome ↔
    ((msg.length = 12 ∧ msg.head? = some 0x81#8) ∨ (msg.length = 3 ∧ msg.head? = some 0x82#8))
    ∧ bytes2 (crc16 (msg.take (msg.length - 2))) = msg.drop (msg.length - 2) := by
  rcases msg with _ | ⟨k, body⟩
  · simp [readMessage]
  · by_cases report : k = 0x81#8
    · subst report
      have read : readMessage (0x81#8 :: body) = (readReport body).map .report := rfl
      rw [read, Option.isSome_map, readReport_isSome]
      constructor
      · rintro ⟨length, crc⟩
        simpa [length] using crc
      · rintro ⟨(⟨length, -⟩ | ⟨-, kind⟩), crc⟩
        · have length : body.length = 11 := by simpa using length
          exact ⟨length, by simpa [length] using crc⟩
        · exact absurd kind (by simp)
    · by_cases idle : k = 0x82#8
      · subst idle
        have read : readMessage (0x82#8 :: body) = if readOiuIdle body then some .idle else none := rfl
        have passes : (readMessage (0x82#8 :: body)).isSome ↔ readOiuIdle body = true := by
          rw [read]; split <;> simp_all
        rw [passes, readOiuIdle_iff]
        constructor
        · rintro rfl
          simp
        · rintro ⟨(⟨-, kind⟩ | ⟨length, -⟩), crc⟩
          · exact absurd kind (by simp)
          · have length : body.length = 2 := by simpa using length
            simpa [length] using crc
      · simp [readMessage, pulseReportKind, oiuIdleKind, report, idle]

/-- A message whose first byte is of no kind is no valid one (R41). -/
theorem readMessage_unknown {msg : List Byte} (report : msg.head? ≠ some 0x81#8)
    (idle : msg.head? ≠ some 0x82#8) : readMessage msg = none := by
  rw [← Option.not_isSome_iff_eq_none, readMessage_isSome]
  rintro ⟨⟨-, kind⟩ | ⟨-, kind⟩, -⟩
  · exact report kind
  · exact idle kind

/-- A PULSE REPORT closed by its CRC reads back (R46, Message layouts). -/
theorem readMessage_report (p n w1 g w2 : Byte) (stamp : Instant) :
    let msg := [0x81#8, p, n, w1, g, w2] ++ bytes4 stamp
    readMessage (withCrc msg) = some (.report
      { position := p.toNat, count := n.toNat, width1 := w1.toNat, gap := g.toNat
        width2 := w2.toNat, stamp := stamp }) := by
  intro msg
  have read : readMessage (withCrc msg) = (readReport ([p, n, w1, g, w2] ++ bytes4 stamp
      ++ bytes2 (crc16 msg))).map .report := rfl
  have closed : readReport ([p, n, w1, g, w2] ++ bytes4 stamp ++ bytes2 (crc16 msg)) = some
      { position := p.toNat, count := n.toNat, width1 := w1.toNat, gap := g.toNat
        width2 := w2.toNat, stamp := stamp } := by
    refine (readReport_eleven p n w1 g w2 _ _ _ _ _ _).trans ((if_pos rfl).trans ?_)
    rw [bytes4_append]
  rw [read, closed]
  rfl

/-- An OIU IDLE closed by its CRC reads back (Message layouts). -/
theorem readMessage_idle : readMessage (withCrc [0x82#8]) = some .idle := by
  have read : readMessage (withCrc [0x82#8])
      = if readOiuIdle (bytes2 (crc16 [0x82#8])) then some .idle else none := rfl
  rw [read, if_pos ((readOiuIdle_iff _).2 rfl)]

/-! ## A message that arrives (R37, R41, R42) -/

/-- A channel that is not served drops every message (R37). -/
theorem State.messageArrives_unserved {s : State} (h : s.isReady = false) (j : Valve)
    (m : Option Inbound) : s.messageArrives j m = s := by
  have working : s.working = none := by simpa [State.isReady] using h
  rw [State.messageArrives, working]

section
variable {s : State} {im : Image} (h : s.unit = .ready im) (j : Valve)
include h

theorem State.messageArrives_invalid : s.messageArrives j none = s.discardMessage j := by
  simp only [State.messageArrives, State.working_ready h]

theorem State.messageArrives_idle : s.messageArrives j (some .idle) = s.superviseMessage j := by
  simp only [State.messageArrives, State.working_ready h]

theorem State.messageArrives_report (r : PulseReport) : s.messageArrives j (some (.report r))
    = (s.superviseMessage j).takePulseReport im j r := by
  simp only [State.messageArrives, State.working_ready h]

end

/-- Settles O20: the three checks byte by byte, and the state of the unit. -/
theorem messagesAreChecked : Obligations.MessagesAreChecked := by
  refine ⟨readMessage_isSome, fun p n w1 g w2 stamp => ⟨readMessage_report p n w1 g w2 stamp,
    readMessage_idle⟩, fun s t j body => ⟨fun hr => ?_, fun hr hl => ?_⟩⟩
  · obtain ⟨im, hu⟩ := State.isReady_iff.1 hr
    have arrives (m : Option Inbound) (hm : m = none) : s.atTick t (State.messageArrives j m)
        = .next ((s.atInstant t).discardMessage j) := by
      rw [State.atTick_live (State.live_ready hu), hm]
      exact congrArg _ (State.messageArrives_invalid (s := s.atInstant t) hu j)
    exact ⟨arrives _, arrives _, fun report idle => arrives _ (readMessage_unknown report idle)⟩
  · have dropped (m : Option Inbound) :
        s.atTick t (State.messageArrives j m) = .next (s.atInstant t) := by
      rw [State.atTick_live hl]
      exact congrArg _ (State.messageArrives_unserved (s := s.atInstant t) hr j m)
    exact ⟨dropped _, dropped _, dropped _⟩

/-! ## Valid messages (R42 to R44) -/

theorem Channel.nextRun_inTime {c : Channel} {m t : Instant} (hm : c.lastMessage = some m)
    (hs : span m t ≤ 2000) (hr : 1 ≤ c.run) : c.nextRun t = c.run + 1 := by
  rw [Channel.nextRun, hm]
  exact if_pos ⟨hr, hs⟩

/-- The first message of a run, and one too late for the run before it, begin a run (R44). -/
theorem Channel.nextRun_begins {c : Channel} {t : Instant}
    (h : c.run = 0 ∨ ¬ ∃ m, c.lastMessage = some m ∧ span m t ≤ 2000) : c.nextRun t = 1 := by
  unfold Channel.nextRun
  split
  · rename_i m hm
    refine if_neg fun ⟨hr, hs⟩ => ?_
    rcases h with none | late
    · omega
    · exact late ⟨m, hm, hs⟩
  · rfl

/-- A channel after a valid message at `t` (R42, R43, R44). -/
def Channel.heard (c : Channel) (t : Instant) : Channel :=
  if c.up then { c with lastMessage := some t }
  else if 8 ≤ c.nextRun t then { c with lastMessage := some t, up := true, run := 0 }
  else { c with lastMessage := some t, run := c.nextRun t }

theorem Channel.heard_up {c : Channel} (up : c.up = true) (t : Instant) :
    c.heard t = { c with lastMessage := some t } := if_pos up

theorem Channel.heard_proven {c : Channel} {t : Instant} (down : c.up = false)
    (proven : 8 ≤ c.nextRun t) :
    c.heard t = { c with lastMessage := some t, up := true, run := 0 } := by
  rw [Channel.heard, if_neg (by simp [down]), if_pos proven]

theorem Channel.heard_unproven {c : Channel} {t : Instant} (down : c.up = false)
    (unproven : ¬ 8 ≤ c.nextRun t) :
    c.heard t = { c with lastMessage := some t, run := c.nextRun t } := by
  rw [Channel.heard, if_neg (by simp [down]), if_neg unproven]

/-- Supervision replaces the channel, and posts CHANNEL when it proves it (R42, R43, R44). -/
theorem State.superviseMessage_eq (s : State) (j : Valve) :
    let c := (s.valve j).channel
    let u := s.setValve j { s.valve j with channel := c.heard s.timebase }
    s.superviseMessage j
      = if c.up = false ∧ 8 ≤ c.nextRun s.timebase then u.post (.valve j) valveChannel else u := by
  intro c u
  have twice (f g : Channel → Channel) : (s.modChannel j f).modChannel j g
      = s.setValve j { s.valve j with channel := g (f c) } := by
    simp [State.modChannel, State.modValve, c]
  have record : u = s.setValve j { s.valve j with channel := c.heard s.timebase } := rfl
  by_cases up : c.up = true
  · rw [if_neg (by simp [up]), record, Channel.heard_up up]
    exact if_pos up
  · have down : c.up = false := Bool.not_eq_true _ ▸ up
    by_cases proven : 8 ≤ c.nextRun s.timebase
    · rw [if_pos ⟨down, proven⟩, record, Channel.heard_proven down proven]
      refine (if_neg up).trans ((if_pos proven).trans ?_)
      rw [twice]
    · rw [if_neg fun h => proven h.2, record, Channel.heard_unproven down proven]
      refine (if_neg up).trans ((if_neg proven).trans ?_)
      rw [twice]

/-- A valid OIU IDLE does what supervision does. -/
theorem exec_oiuIdle {s : State} {t : Instant} {j : Valve} {body : List Byte} (hr : s.isReady = true)
    (hm : readMessage (0x82#8 :: body) = some .idle) :
    let c := (s.valve j).channel
    let u := (s.atInstant t).setValve j { s.valve j with channel := c.heard t }
    exec (.oiuIdle t j body) s
      = .next (if c.up = false ∧ 8 ≤ c.nextRun t then u.post (.valve j) valveChannel else u) := by
  intro c u
  obtain ⟨im, hu⟩ := State.isReady_iff.1 hr
  have run : exec (.oiuIdle t j body) s
      = s.atTick t (State.messageArrives j (readMessage (0x82#8 :: body))) := rfl
  rw [run, hm, State.atTick_live (State.live_ready hu),
    State.messageArrives_idle (s := s.atInstant t) hu]
  exact congrArg _ ((s.atInstant t).superviseMessage_eq j)

/-- Settles O21, by the run that the message finds. -/
theorem validMessagesProveTheChannel : Obligations.ValidMessagesProveTheChannel := by
  intro s t j body hr hm v c result inTime
  have run := exec_oiuIdle (t := t) (j := j) hr hm
  have counts (n : Nat) (up : c.up = false) (next : c.nextRun t = n) (unproven : n < 8) :
      exec (.oiuIdle t j body) s = .next (result { c with lastMessage := some t, run := n }) := by
    have few : ¬ 8 ≤ c.nextRun t := by omega
    rw [run, Channel.heard_unproven up few, if_neg fun h => few h.2, next]
  refine ⟨fun up => ?_, fun up first => counts 1 up (Channel.nextRun_begins (.inl first)) (by omega),
    fun up _ late => counts 1 up (Channel.nextRun_begins (.inr late)) (by omega),
    fun up begun short ⟨m, hm, hs⟩ =>
      counts (c.run + 1) up (Channel.nextRun_inTime hm hs begun) (by omega),
    fun up seven ⟨m, hm, hs⟩ => ?_⟩
  · rw [run, Channel.heard_up up, if_neg (by simp [show (s.valve j).channel.up = true from up])]
  · have eighth : 8 ≤ c.nextRun t := by
      rw [Channel.nextRun_inTime hm hs (by omega), seven]
    rw [run, Channel.heard_proven up eighth, if_pos ⟨up, eighth⟩]

/-! ## The timers of a channel (R40, R43) -/

/-- One cause handed is taken alone. -/
theorem State.settle_hand {s : State} (h : s.handed = []) (c : TripCause) :
    (s.hand c).settle = s.latch c := by
  have taken : ({ s.hand c with handed := [] } : State) = s := by
    obtain ⟨⟩ := s
    cases h
    rfl
  unfold State.settle
  rw [State.hand_handed, h, taken]
  rfl

/-- Settles O22: each timer acts on the state at its instant alone. -/
theorem channelTimersAct : Obligations.ChannelTimersAct := by
  refine ⟨fun t => rfl, fun s t m j hr => ?_⟩
  intro v
  obtain ⟨im, hu⟩ := State.isReady_iff.1 hr
  have working : (s.atInstant t).working = some im := State.working_ready hu
  refine ⟨fun up heard => ?_, fun sent => ?_⟩
  · have upNow : ((s.atInstant t).valve j).channel.up = true := up
    have heardNow : ((s.atInstant t).valve j).channel.lastMessage = some m := heard
    have run : exec (.channelDown t j) s = .next (if reached t (after m 2000) = true then
        (((((s.atInstant t).setValve j { v with channel := { v.channel with
          up := false, run := 0 } }).post (.valve j) valveChannel)).hand .channel).settle
        else s.atInstant t) := by
      simp only [exec, execChannelDown, State.atTick_live (State.live_ready hu), working, upNow,
        heardNow]
      rfl
    refine ⟨fun down => ?_, fun early => by rw [run, if_neg (by simp [early])]⟩
    rw [run, if_pos down, State.settle_hand rfl]
  · have sentNow : ((s.atInstant t).valve j).channel.lastSend = some m := sent
    have run : exec (.vc12Idle t j) s = .next (if reached t (after m 500) = true then
        (s.atInstant t).sendIdle j else s.atInstant t) := by
      simp only [exec, execVc12Idle, State.atTick_live (State.live_ready hu), working, sentNow]
    refine ⟨fun due => ?_, fun early => by rw [run, if_neg (by simp [early])]⟩
    rw [run, if_pos due]
    rfl

end Sys2Proof.Machine
end

section
/-! PROOF. The classes of a pulse report, and a report classified NOISE (R46 to R48, R50). -/

namespace Sys2Proof.Machine

open Sys2Proof

/-! ## The pattern of a report (R48) -/

theorem inRange_iff {lo hi n : Nat} : inRange lo hi n = true ↔ lo ≤ n ∧ n ≤ hi := by
  simp [inRange]

/-- A pulse of width `w` is narrow (R48). -/
def Par.narrow (im : Image) (w : Nat) : Prop := Par.wil im ≤ w ∧ w ≤ Par.wih im

section
variable {im : Image} {r : PulseReport}

theorem pulsePattern_one (h : r.count = 1) : pulsePattern im r
    = if inRange (Par.wil im) (Par.wih im) r.width1 then .ind
      else if inRange (Par.wll im) (Par.wlh im) r.width1 then .lft else .noise := if_pos h

theorem pulsePattern_two (h : r.count = 2) : pulsePattern im r
    = if inRange (Par.wil im) (Par.wih im) r.width1 && inRange (Par.wil im) (Par.wih im) r.width2
          && inRange (Par.gl im) (Par.gh im) r.gap then .pfi else .noise :=
  (if_neg (by omega)).trans (if_pos h)

theorem pulsePattern_other (h1 : r.count ≠ 1) (h2 : r.count ≠ 2) : pulsePattern im r = .noise :=
  (if_neg h1).trans (if_neg h2)

/-- Three patterns by the number of pulses; what shows none of them is NOISE (R48). -/
theorem pulsePattern_iff :
    (pulsePattern im r = .ind ↔ r.count = 1 ∧ Par.narrow im r.width1)
    ∧ (pulsePattern im r = .pfi ↔ r.count = 2 ∧ Par.narrow im r.width1 ∧ Par.narrow im r.width2
        ∧ Par.gl im ≤ r.gap ∧ r.gap ≤ Par.gh im)
    ∧ (pulsePattern im r = .lft ↔ r.count = 1 ∧ (Par.wll im ≤ r.width1 ∧ r.width1 ≤ Par.wlh im)
        ∧ ¬ Par.narrow im r.width1) := by
  unfold Par.narrow
  simp only [← inRange_iff]
  by_cases one : r.count = 1
  · rw [pulsePattern_one one]
    by_cases short : inRange (Par.wil im) (Par.wih im) r.width1 = true
    · simp [one, short]
    · by_cases long : inRange (Par.wll im) (Par.wlh im) r.width1 = true
      · simp [one, short, long]
      · simp [one, short, long]
  · by_cases two : r.count = 2
    · rw [pulsePattern_two two]
      by_cases pair : (inRange (Par.wil im) (Par.wih im) r.width1
          && inRange (Par.wil im) (Par.wih im) r.width2 && inRange (Par.gl im) (Par.gh im) r.gap) = true
      · rw [if_pos pair]
        simpa [two, and_assoc] using pair
      · rw [if_neg pair]
        simpa [two, and_assoc] using pair
    · rw [pulsePattern_other one two]
      simp [one, two]

end

/-! ## The class of a report (R46, R47) -/

/-- A report has a class when its position is installed, its stamp recent enough, and its pattern that
of the class. -/
theorem classify_iff {im : Image} {j : Valve} {now : Instant} {r : PulseReport} {cls : PulseClass}
    (h : cls ≠ .noise) : classify im j now r = cls ↔
      (1 ≤ r.position ∧ r.position ≤ Par.nv j im ∧ span r.stamp now ≤ 4000)
        ∧ pulsePattern im r = cls := by
  have placed : (inRange 1 (Par.nv j im) r.position && decide (span r.stamp now ≤ 4000)) = true ↔
      1 ≤ r.position ∧ r.position ≤ Par.nv j im ∧ span r.stamp now ≤ 4000 := by
    rw [Bool.and_eq_true, inRange_iff, decide_eq_true_eq, and_assoc]
  unfold classify
  rw [← placed]
  split
  · rename_i seen
    exact (and_iff_right seen).symm
  · rename_i unseen
    exact iff_of_false h.symm fun both => unseen both.1

/-! ## NOISE (R50) -/

/-- A report classified NOISE raises both counts, and posts NOISE when noise this cycle reaches
NOISELIM below its limit. -/
theorem State.countNoise_eq (s : State) (im : Image) (j : Valve) :
    let c := (s.valve j).channel
    let u := s.setValve j { s.valve j with channel := { c with
      noiseTotal := min 65535 (c.noiseTotal + 1), noiseCycle := min 255 (c.noiseCycle + 1) } }
    s.countNoise im j
      = if c.noiseCycle < 255 ∧ c.noiseCycle + 1 = Par.noiselim im
        then u.post (.valve j) valveNoise else u := rfl

/-- Settles O23: the class is read off position, stamp and pattern, and NOISE comes after
supervision. -/
theorem reportsAreClassified : Obligations.ReportsAreClassified := by
  refine ⟨fun im j now r => ?_, fun s t j body r im hu hr hc => ?_⟩
  · intro placed narrow long
    obtain ⟨ind, pfi, lft⟩ := pulsePattern_iff (im := im) (r := r)
    exact ⟨(classify_iff (cls := .ind) nofun).trans (and_congr_right' ind),
      (classify_iff (cls := .pfi) nofun).trans (and_congr_right' pfi),
      (classify_iff (cls := .lft) nofun).trans (and_congr_right' lft)⟩
  · intro s1 c s2
    have run : exec (.pulseReport t j body) s
        = s.atTick t (State.messageArrives j (readMessage (0x81#8 :: body))) := rfl
    have working : (s.atInstant t).unit = .ready im := hu
    have noise : s1.takePulseReport im j r = s1.countNoise im j := by
      have now : s1.timebase = t := ((s.atInstant t).superviseMessage_rest j).timebase
      unfold State.takePulseReport
      rw [now, hc]
    rw [run, hr, State.atTick_live (State.live_ready hu), State.messageArrives_report working]
    exact congrArg _ (noise.trans (s1.countNoise_eq im j))

end Sys2Proof.Machine
end

section
/-! PROOF. The Level Table as the tally, the stamps and the table change counter count it (R54, R57 to R59,
R69 to R72, R84 to R86). -/

namespace Sys2Proof.Machine

open Sys2Proof

/-! ## The tally of a valve's records (R85) -/

/-- The count of one state in a tally; there is none of ABSENT. -/
def Tally.count (t : Tally) : LevelState → Nat
  | .absent => 0
  | .unproven => t.unproven
  | .sound => t.sound
  | .suspect => t.suspect
  | .dark => t.dark
  | .faulted => t.faulted
  | .retired => t.retired

/-- A tally counts the records `ls` by state (R85). -/
def Tally.Counts (t : Tally) (ls : List Level) : Prop :=
  ∀ st, st ≠ .absent → t.count st = ls.countP fun l => decide (l.state = st)

theorem Tally.count_modify (t : Tally) (f : Nat → Nat) {changed st : LevelState}
    (h : st ≠ .absent) :
    (t.modify f changed).count st = if st = changed then f (t.count st) else t.count st := by
  cases st with
  | absent => exact absurd rfl h
  | _ => cases changed <;> rfl

/-- One record counted less in its old state and more in its new one (R85). -/
theorem Tally.count_move (t : Tally) {old new st : LevelState} (moves : old ≠ new)
    (h : st ≠ .absent) : (t.move old new).count st = if st = old then t.count st - 1
      else if st = new then t.count st + 1 else t.count st := by
  rw [Tally.move, Tally.count_modify _ _ h, Tally.count_modify _ _ h]
  by_cases left : st = old
  · rw [if_pos left, if_pos left, if_neg fun e => moves (left.symm.trans e)]
  · rw [if_neg left, if_neg left]

/-- A tally kept in step with the records: some counted by `n`, one whose state moves, and the rest. -/
theorem Tally.count_move_of {t : Tally} {old new : LevelState} (moves : old ≠ new)
    {n : LevelState → Nat} (h : ∀ st, st ≠ .absent → t.count st = n st + if old = st then 1 else 0)
    (st : LevelState) (hs : st ≠ .absent) :
    (t.move old new).count st = n st + if new = st then 1 else 0 := by
  rw [Tally.count_move t moves hs, h st hs]
  by_cases left : old = st
  · subst left
    simp [moves.symm]
  · by_cases entered : new = st
    · subst entered
      simp [left, Ne.symm left]
    · simp [left, entered, Ne.symm left, Ne.symm entered]

/-- A valve record agrees with its records when its tally, its margin and its two counts do (R54, R84 to
R86, R98). -/
theorem ValveRecord.inv_iff {v : ValveRecord} {nv rv mdark c : Nat} :
    v.Inv nv rv mdark c ↔ v.levels.length = nv ∧ (∀ l ∈ v.levels, l.Inv mdark c)
      ∧ v.monitor.tally.Counts v.levels ∧ v.monitor.margin = marginOf v.monitor.tally.failed rv
      ∧ v.monitor.indicated = v.levels.countP (·.indicated)
      ∧ v.monitor.distinctPfi = v.levels.countP (·.pfi) := by
  constructor
  · intro h
    refine ⟨h.installed, h.levels, fun st hs => ?_, h.margin, h.indicated, h.distinctPfi⟩
    cases st with
    | absent => exact absurd rfl hs
    | unproven => exact h.unproven
    | sound => exact h.sound
    | suspect => exact h.suspect
    | dark => exact h.dark
    | faulted => exact h.faulted
    | retired => exact h.retired
  · rintro ⟨installed, levels, tally, margin, indicated, pfi⟩
    exact ⟨installed, levels, tally .unproven nofun, tally .sound nofun, tally .suspect nofun,
      tally .dark nofun, tally .faulted nofun, tally .retired nofun, margin, indicated, pfi⟩

/-! ## One accounting record by record (R58, R69 to R72) -/

/-- The stamp of the `n`-th change after the counter stood at `c`: the value the counter takes, 0 past the
counter's end (R57, R58, R59). -/
def stampAt (c n : Nat) : Nat := if c ≤ 4294967295 ∧ c + n ≤ 4294967295 then c + n else 0

theorem stampAt_one (c : Nat) : stampAt c 1 = nextStamp c := by
  unfold stampAt nextStamp Config.stampLimit
  split <;> split <;> omega

theorem stampAt_next (c : Nat) {n : Nat} (h : 0 < n) :
    stampAt (nextCounter c) n = stampAt c (n + 1) := by
  unfold stampAt nextCounter Config.stampLimit
  split <;> split <;> split <;> omega

section
variable (msus mdark : Nat) (valid : Bool)

/-- The review of a record changes its state. -/
def Level.changes (l : Level) : Bool := decide ((l.review msus mdark valid).state ≠ l.state)

theorem reviewAll_cons (c : Nat) (l : Level) (ls : List Level) :
    let c' := if l.changes msus mdark valid then nextCounter c else c
    let r := reviewAll msus mdark valid c' ls
    reviewAll msus mdark valid c (l :: ls) =
      { counter := r.counter
        levels := { (l.review msus mdark valid).clearFlags with
          stamp := if l.changes msus mdark valid then nextStamp c else l.stamp } :: r.levels
        changes := if l.changes msus mdark valid then
            (l.state, (l.review msus mdark valid).state) :: r.changes else r.changes } := by
  have stamp : (l.review msus mdark valid).stamp = l.stamp := by
    obtain ⟨frame, -⟩ := l.review_frame msus mdark valid
    rw [frame]
  by_cases h : (l.review msus mdark valid).state = l.state
  · rw [reviewAll_same _ _ _ h]
    simp [Level.changes, h, ← stamp, Level.clearFlags]
  · rw [reviewAll_changed _ _ _ h]
    simp [Level.changes, h]

/-- The counter goes up by one at each change, up to its end (R57, R58, R59). -/
theorem reviewAll_counter_eq {c : Nat} (hc : c ≤ 4294967295) (ls : List Level) :
    (reviewAll msus mdark valid c ls).counter
      = min 4294967295 (c + ls.countP (·.changes msus mdark valid)) := by
  induction ls generalizing c with
  | nil => simp [hc]
  | cons l ls ih =>
    rw [reviewAll_cons, List.countP_cons]
    by_cases h : l.changes msus mdark valid = true
    · have next : nextCounter c ≤ 4294967295 ∧ nextCounter c = min 4294967295 (c + 1) := by
        unfold nextCounter Config.stampLimit
        split <;> omega
      simp only [h, if_true, ih next.1]
      omega
    · simp only [h, Bool.false_eq_true, if_false, ih hc]
      rfl

/-- Each record after an accounting: its review with the flags cleared, under its old stamp, or at a change
under the stamp that its place among the changes gives it (R57 to R59, R70 to R72). -/
theorem reviewAll_record (c : Nat) (ls : List Level) (k : Nat) (l : Level) (hk : ls[k]? = some l) :
    (reviewAll msus mdark valid c ls).levels[k]? = some
      { (l.review msus mdark valid).clearFlags with
        stamp := if l.changes msus mdark valid = false then l.stamp
          else stampAt c ((ls.take (k + 1)).countP (·.changes msus mdark valid)) } := by
  induction ls generalizing c k with
  | nil => cases hk
  | cons l' ls ih =>
    rw [reviewAll_cons]
    cases k with
    | zero =>
      cases hk
      by_cases h : l.changes msus mdark valid = true <;> simp [h, stampAt_one]
    | succ k =>
      rw [List.getElem?_cons_succ, ih _ k hk, List.take_succ_cons, List.countP_cons]
      by_cases h : l'.changes msus mdark valid = true
      · by_cases own : l.changes msus mdark valid = true
        · have counted : 0 < (ls.take (k + 1)).countP (·.changes msus mdark valid) :=
            List.countP_pos_iff.2
              ⟨l, List.mem_of_getElem? (i := k) (by rw [List.getElem?_take_of_lt k.lt_succ_self]; exact hk),
                own⟩
          simp only [h, if_true, stampAt_next c counted]
        · simp only [Bool.not_eq_true _ ▸ own, if_true]
      · simp [h]

/-- What a tally has moved by when the changes of an accounting have been handed on (R60, R85). -/
theorem Tally.counts_reviewAll {t : Tally} {n : LevelState → Nat} (c : Nat) (ls : List Level)
    (h : ∀ st, st ≠ .absent → t.count st = n st + ls.countP fun l => decide (l.state = st))
    (st : LevelState) (hs : st ≠ .absent) :
    let r := reviewAll msus mdark valid c ls
    (r.changes.foldl (fun t c => t.move c.1 c.2) t).count st
      = n st + r.levels.countP fun l => decide (l.state = st) := by
  induction c, ls using reviewAll_induction (msus := msus) (mdark := mdark) (valid := valid)
    generalizing t n with
  | nil c => exact h st hs
  | same c l ls same ih =>
    have rest := ih (n := fun st => n st + if l.state = st then 1 else 0) fun st hs => by
      rw [h st hs, List.countP_cons]
      simp only [decide_eq_true_eq]
      omega
    have state : ∀ st, ((l.review msus mdark valid).clearFlags.state = st) ↔ l.state = st :=
      fun st => by rw [← same]; rfl
    rw [reviewAll_same _ _ _ same]
    simp only [List.countP_cons, decide_eq_true_eq, state] at rest ⊢
    rw [rest]
    omega
  | changed c l ls moves ih =>
    have moved := Tally.count_move_of (t := t) (old := l.state)
      (new := (l.review msus mdark valid).state) moves.symm
      (n := fun st => n st + ls.countP fun l => decide (l.state = st)) fun st hs => by
        rw [h st hs, List.countP_cons]
        simp only [decide_eq_true_eq]
        omega
    have rest := ih (t := t.move l.state (l.review msus mdark valid).state)
      (n := fun st => n st + if (l.review msus mdark valid).state = st then 1 else 0) fun st hs => by
        rw [moved st hs]
        omega
    have state : (l.review msus mdark valid).clearFlags.state
        = (l.review msus mdark valid).state := rfl
    rw [reviewAll_changed _ _ _ moves]
    simp only [List.foldl_cons, List.countP_cons, decide_eq_true_eq, state] at rest ⊢
    rw [rest]
    omega

end

end Sys2Proof.Machine
end

section
/-! PROOF. The closing of an observation interval (R57, R58, R69 to R72). -/

namespace Sys2Proof.Machine

open Sys2Proof

/-! ## One record (R70, R71) -/

/-- The state and the miss count of a record after its review. -/
theorem Level.review_next (l : Level) (msus mdark : Nat) (valid : Prop) [Decidable valid] :
    (if l.state.counting = false then (l.state, l.miss)
      else if l.indicated then (.sound, 0)
      else if ¬ valid then (l.state, l.miss)
      else
        (if min mdark (l.miss + 1) = mdark then .dark
          else if msus ≤ min mdark (l.miss + 1) ∧ l.state = .sound then .suspect else l.state,
          min mdark (l.miss + 1)))
      = ((l.review msus mdark (decide valid)).state, (l.review msus mdark (decide valid)).miss) := by
  by_cases counts : l.state.counting = true
  · by_cases indicated : l.indicated = true
    · simp [counts, indicated, Level.review_indicated counts indicated]
    · by_cases hv : valid
      · have dark : mdark ≤ min mdark (l.miss + 1) ↔ min mdark (l.miss + 1) = mdark := by omega
        simp [Level.review, counts, indicated, hv, bump, dark]
      · simp [Level.review, counts, indicated, hv]
  · rw [Bool.not_eq_true] at counts
    simp [counts, Level.review_idle counts]

/-! ## The changes handed on (R60) -/

/-- Without a change of state a closing hands nothing on. -/
theorem State.closeInterval_unchanged {s : State} {j : Valve}
    (h : (reviewAll (s.par Par.msus) (s.par Par.mdark)
      (decide (s.qv j ≤ (s.valve j).monitor.indicated)) s.counter (s.valve j).levels).changes = []) :
    let u := s.closeInterval j
    u.word = s.word ∧ u.handed = s.handed
      ∧ (u.valve j).monitor.tally = (s.valve j).monitor.tally
      ∧ (u.valve j).monitor.margin = (s.valve j).monitor.margin := by
  intro u
  simp only [u, State.closeInterval, h, List.foldl_nil]
  refine ⟨?_, rfl, by simp, by simp⟩
  funext l src
  simp only [State.word_modValve, State.word_setValve]
  cases l <;> rfl

/-- A change of a level's state posts STATE and takes back no word (R60). -/
theorem State.levelChange_posts (s : State) (j : Valve) (c : LevelState × LevelState) :
    WordsGrow (s.post (.valve j) valveState) (s.levelChange j c) := by
  have tallied : WordsGrow (s.post (.valve j) valveState) (s.tallied j c) :=
    (WordsGrow.refl _).setValve ..
  rw [State.levelChange_eq]
  split
  · exact tallied
  · split
    · exact (tallied.post ..).trans (.of_links rfl rfl)
    · exact tallied.post ..

/-- A change of state at a closing posts STATE. -/
theorem State.closeInterval_posts {s : State} {j : Valve}
    (h : (reviewAll (s.par Par.msus) (s.par Par.mdark)
      (decide (s.qv j ≤ (s.valve j).monitor.indicated)) s.counter (s.valve j).levels).changes ≠ [])
    (l : Link) : (s.closeInterval j).word l (.valve j) &&& valveState = valveState := by
  have posts (w : State) (c : LevelState × LevelState) (cs : List (LevelState × LevelState)) :
      ((c :: cs).foldl (State.levelChange j) w).word l (.valve j) &&& valveState = valveState := by
    refine (WordsGrow.foldl (fun w c => State.levelChange_grow w j c) cs _).pending l _ _ ?_
    exact (w.levelChange_posts j c).pending l _ _ (w.post_posted ..)
  obtain ⟨c, cs, e⟩ := List.exists_cons_of_ne_nil h
  simp only [State.closeInterval, State.word_modValve, e]
  exact posts ..

/-- Settles O30: the accounting record by record, its counter and stamps from their place among the
changes, and the rest from the frame of a closing. -/
theorem closingReviewsEveryLevel : Obligations.ClosingReviewsEveryLevel := by
  intro s j im hu v u w valid next changed
  set r := reviewAll (Par.msus im) (Par.mdark im) (decide valid) s.counter v.levels with hr
  have qv : s.qv j = Par.nv j im - Par.rv j im := State.par_ready hu _
  have reviewed : reviewAll (s.par Par.msus) (s.par Par.mdark)
      (decide (s.qv j ≤ (s.valve j).monitor.indicated)) s.counter (s.valve j).levels = r := by
    rw [State.par_ready hu, State.par_ready hu, qv]
  have next_eq (l : Level) : next l = ((l.review (Par.msus im) (Par.mdark im) (decide valid)).state,
      (l.review (Par.msus im) (Par.mdark im) (decide valid)).miss) := l.review_next ..
  have changed_eq : changed = Level.changes (Par.msus im) (Par.mdark im) (decide valid) := by
    funext l
    simp only [changed, next_eq, Level.changes]
  have changes : r.changes = [] ↔ v.levels.any changed = false := by
    rw [hr, reviewAll_changes, List.map_eq_nil_iff, changed_eq]
    simp [Level.changes]
  have frame := s.closeInterval_frame j
  simp only [reviewed] at frame
  obtain ⟨counter, guard, group, -, sent, -, others, own, -⟩ := frame
  have levels : w.levels = r.levels := by rw [show w = _ from own]
  refine ⟨?_, fun k l hk => ?_, fun hc => ?_, fun hc => ?_, fun hc => ?_, ?_, others, sent, group,
    guard, s.closeInterval_rest j⟩
  · rw [levels, hr, reviewAll_length]
  · obtain ⟨frame, -⟩ := l.review_frame (Par.msus im) (Par.mdark im) (decide valid)
    rw [levels, hr, reviewAll_record _ _ _ _ _ _ _ hk, changed_eq, next_eq]
    rw [frame]
    rfl
  · rw [counter, hr, reviewAll_counter_eq _ _ _ hc, changed_eq]
  · refine State.closeInterval_posts (s := s) (j := j) ?_
    rw [reviewed, Ne, changes, hc]
    nofun
  · refine State.closeInterval_unchanged (s := s) (j := j) ?_
    rw [reviewed, changes]
    exact hc
  · rw [levels]
    exact own

end Sys2Proof.Machine
end

section
/-! PROOF. The changes of the Level Table one by one keep its invariants: an interval accounting, a record
replaced by a stamped change, a report that leaves its record's state, and a start (R54, R55, R57 to R59, R68,
R71, R81, R84 to R86, R98). -/

namespace Sys2Proof.Machine

open Sys2Proof

/-! ## One record -/

theorem Level.Inv.mono {l : Level} {mdark c c' : Nat} (h : l.Inv mdark c) (hc : c ≤ c') :
    l.Inv mdark c' :=
  ⟨h.installed, h.miss, h.indicated, h.retiredBy, h.firstFault, h.counts, h.stamp.trans hc⟩

/-- A record under another stamp. -/
theorem Level.Inv.stamped {l : Level} {mdark c c' n : Nat} (h : l.Inv mdark c) (hn : n ≤ c') :
    { l with stamp := n }.Inv mdark c' :=
  ⟨h.installed, h.miss, h.indicated, h.retiredBy, h.firstFault, h.counts, hn⟩

/-- A reviewed record with its flags cleared (R70 to R72). -/
theorem Level.Inv.reviewed {l : Level} {msus mdark c : Nat} {valid : Bool} (h : l.Inv mdark c) :
    (l.review msus mdark valid).clearFlags.Inv mdark c := by
  obtain ⟨frame, miss, -, installed, retired⟩ := l.review_frame msus mdark valid
  generalize l.review msus mdark valid = r at *
  rw [frame]
  exact ⟨installed h.installed, miss h.miss, nofun, h.retiredBy.trans retired.symm, h.firstFault,
    h.counts, h.stamp⟩

theorem stampAt_le {c n : Nat} : stampAt c n ≤ min 4294967295 (c + n) := by
  unfold stampAt
  split <;> omega

theorem nextStamp_le_nextCounter (c : Nat) : nextStamp c ≤ nextCounter c := by
  unfold nextStamp nextCounter
  split <;> omega

theorem nextCounter_bounds {c : Nat} : c ≤ nextCounter c
    ∧ (c ≤ 4294967295 → nextCounter c ≤ 4294967295) := by
  unfold nextCounter Config.stampLimit
  split <;> omega

/-- Every record after an accounting is in range, under the counter that the accounting leaves. -/
theorem reviewAll_inv {msus mdark c : Nat} {valid : Bool} {ls : List Level} (hc : c ≤ 4294967295)
    (h : ∀ l ∈ ls, l.Inv mdark c) :
    let r := reviewAll msus mdark valid c ls
    ∀ l ∈ r.levels, l.Inv mdark r.counter ∧ l.indicated = false ∧ l.pfi = false := by
  intro r l' hl'
  obtain ⟨k, hk⟩ := List.mem_iff_getElem?.1 hl'
  have short : k < ls.length := by
    obtain ⟨hlt, -⟩ := List.getElem?_eq_some_iff.1 hk
    rwa [reviewAll_length] at hlt
  have old := List.getElem?_eq_getElem short
  rw [reviewAll_record _ _ _ _ _ _ _ old, Option.some.injEq] at hk
  have inv := h _ (List.mem_of_getElem? old)
  have grown : c ≤ r.counter := (reviewAll_counter msus mdark valid c ls).1
  rw [← hk]
  refine ⟨inv.reviewed.stamped ?_, rfl, rfl⟩
  split
  · exact inv.stamp.trans grown
  · have counter : r.counter = _ := reviewAll_counter_eq msus mdark valid hc ls
    have first := (List.take_sublist (k + 1) ls).countP_le (p := (·.changes msus mdark valid))
    have stamp := stampAt_le (c := c)
      (n := (ls.take (k + 1)).countP (·.changes msus mdark valid))
    omega

/-! ## The changes of a valve's levels handed on (R60, R85, R86) -/

/-- Tally and margin after a change of a level's state. -/
theorem State.levelChange_monitor (s : State) (j : Valve) (c : LevelState × LevelState) :
    let m := (s.valve j).monitor
    ((s.levelChange j c).valve j).monitor = { m with
      tally := m.tally.move c.1 c.2, margin := s.marginAt j (m.tally.move c.1 c.2) } := by
  intro m
  have tallied : ((s.tallied j c).valve j).monitor = { m with
      tally := m.tally.move c.1 c.2, margin := s.marginAt j (m.tally.move c.1 c.2) } := by
    unfold State.tallied
    rw [State.setValve_same]
  rw [State.levelChange_eq]
  split
  · exact tallied
  · split <;> exact tallied

/-- Tally and margin after several. -/
theorem foldl_levelChange_monitor (s : State) (j : Valve) (cs : List (LevelState × LevelState))
    (judged : (s.valve j).monitor.margin = s.marginAt j (s.valve j).monitor.tally) :
    let m := (s.valve j).monitor
    let tally := cs.foldl (fun t c => t.move c.1 c.2) m.tally
    ((cs.foldl (State.levelChange j) s).valve j).monitor
      = { m with tally := tally, margin := s.marginAt j tally } := by
  induction cs generalizing s with
  | nil =>
    simp only [List.foldl_nil, ← judged]
  | cons c cs ih =>
    have first := s.levelChange_monitor j c
    have marginAt (t : Tally) : (s.levelChange j c).marginAt j t = s.marginAt j t := by
      unfold State.marginAt
      rw [(s.levelChange_rest j c).par]
    rw [List.foldl_cons, ih _ (by rw [first, marginAt])]
    simp only [marginAt, first, List.foldl_cons]

/-! ## An accounting -/

/-- The closing of a valve's interval keeps its record in agreement with its levels. -/
theorem State.closeInterval_inv {s : State} {im : Image} {j : Valve} (hu : s.unit = .ready im)
    (hc : s.counter ≤ 4294967295)
    (h : (s.valve j).Inv (Par.nv j im) (Par.rv j im) (Par.mdark im) s.counter) :
    ((s.closeInterval j).valve j).Inv (Par.nv j im) (Par.rv j im) (Par.mdark im)
      (s.closeInterval j).counter := by
  set v := s.valve j with hv
  set r := reviewAll (s.par Par.msus) (s.par Par.mdark)
    (decide (s.qv j ≤ v.monitor.indicated)) s.counter v.levels with hr
  obtain ⟨installed, records, counts, margin, -, -⟩ := ValveRecord.inv_iff.1 h
  have judged : v.monitor.margin = s.marginAt j v.monitor.tally := by
    rw [margin, State.marginAt, State.par_ready hu]
  have monitor : ((s.closeInterval j).valve j).monitor = { v.monitor with
      tally := r.changes.foldl (fun t c => t.move c.1 c.2) v.monitor.tally
      margin := s.marginAt j (r.changes.foldl (fun t c => t.move c.1 c.2) v.monitor.tally)
      indicated := 0, distinctPfi := 0 } := by
    have fold := foldl_levelChange_monitor
      (({ s with counter := r.counter } : State).setValve j { v with levels := r.levels }) j
      r.changes (by rw [State.setValve_same]; exact judged)
    rw [State.setValve_same] at fold
    simp only [State.closeInterval, State.modValve_valve, if_true, ← hv, ← hr, fold]
    rfl
  obtain ⟨counter, -, -, -, -, -, -, own, -⟩ := s.closeInterval_frame j
  have levels : ((s.closeInterval j).valve j).levels = r.levels := by rw [own]
  have mdark : s.par Par.mdark = Par.mdark im := State.par_ready hu _
  have reviewed : ∀ l ∈ r.levels, l.Inv (Par.mdark im) r.counter ∧ l.indicated = false
      ∧ l.pfi = false := by
    rw [hr, mdark]
    exact reviewAll_inv hc records
  have none {f : Level → Bool} (hf : ∀ l ∈ r.levels, f l = false) : 0 = r.levels.countP f :=
    (List.countP_eq_zero.2 fun l hl => by simp [hf l hl]).symm
  rw [ValveRecord.inv_iff, levels, monitor, counter]
  refine ⟨?_, fun l hl => (reviewed l hl).1, fun st hs => ?_, ?_,
    none fun l hl => (reviewed l hl).2.1, none fun l hl => (reviewed l hl).2.2⟩
  · rw [hr, reviewAll_length]
    exact installed
  · have tallied := Tally.counts_reviewAll (s.par Par.msus) (s.par Par.mdark)
      (decide (s.qv j ≤ v.monitor.indicated)) (t := v.monitor.tally) (n := fun _ => 0) s.counter
      v.levels (fun st hs => (counts st hs).trans (Nat.zero_add _).symm) st hs
    exact tallied.trans (Nat.zero_add _)
  · rw [State.marginAt, State.par_ready hu]

/-! ## One record replaced -/

/-- The number of records that pass a test after one is replaced. -/
theorem countP_replaced {f : Level → Bool} {ls : List Level} {k : Nat} {l : Level}
    (h : ls[k]? = some l) (l' : Level) :
    (ls.set k l').countP f + (f l).toNat = ls.countP f + (f l').toNat := by
  obtain ⟨short, rfl⟩ := List.getElem?_eq_some_iff.1 h
  have counted : (f ls[k]).toNat ≤ ls.countP f := by
    cases hf : f ls[k] with
    | false => exact Nat.zero_le _
    | true => exact List.countP_pos_iff.2 ⟨_, List.getElem_mem short, hf⟩
  have weight (b : Bool) : (if b = true then 1 else 0) = b.toNat := by cases b <;> rfl
  rw [List.countP_set short, weight, weight]
  omega

/-- A valve record stays in agreement with its levels when one of them is replaced by a record in range
and tally, margin and counts follow it. -/
theorem ValveRecord.Inv.replaced {v : ValveRecord} {nv rv mdark c c' p : Nat} {l' : Level}
    {m : Monitor} (h : v.Inv nv rv mdark c) (installed : (v.level p).state ≠ .absent) (hc : c ≤ c')
    (record : l'.Inv mdark c')
    (tally : m.tally = if (v.level p).state = l'.state then v.monitor.tally
      else v.monitor.tally.move (v.level p).state l'.state)
    (margin : m.margin = marginOf m.tally.failed rv)
    (indicated : m.indicated
      = v.monitor.indicated + l'.indicated.toNat - (v.level p).indicated.toNat)
    (pfi : m.distinctPfi = v.monitor.distinctPfi + l'.pfi.toNat - (v.level p).pfi.toNat) :
    ({ v with levels := v.levels.set (p - 1) l', monitor := m } : ValveRecord).Inv nv rv mdark c' := by
  obtain ⟨length, records, counts, -, hind, hpfi⟩ := ValveRecord.inv_iff.1 h
  obtain ⟨-, -, at'⟩ := ValveRecord.installed installed
  have replaced (f : Level → Bool) := countP_replaced (f := f) at' l'
  rw [ValveRecord.inv_iff]
  refine ⟨by simpa using length, fun l hl => ?_, fun st hs => ?_, margin, ?_, ?_⟩
  · rcases List.mem_or_eq_of_mem_set hl with old | rfl
    · exact (records l old).mono hc
    · exact record
  · have moved := replaced fun l => decide (l.state = st)
    show m.tally.count st = (v.levels.set (p - 1) l').countP fun l => decide (l.state = st)
    rw [tally]
    split
    · rename_i same
      have counted := counts st hs
      simp only [same] at moved
      omega
    · rename_i moves
      rw [Tally.count_move _ moves hs, counts st hs]
      by_cases left : (v.level p).state = st
      · have stays : ¬ l'.state = st := fun e => moves (left.trans e.symm)
        simp only [left, stays, decide_true, decide_false, Bool.toNat_true, Bool.toNat_false]
          at moved
        rw [if_pos left.symm]
        omega
      · by_cases entered : l'.state = st
        · simp only [left, entered, decide_true, decide_false, Bool.toNat_true, Bool.toNat_false]
            at moved
          rw [if_neg (Ne.symm left), if_pos entered.symm]
          omega
        · simp only [left, entered, decide_false, Bool.toNat_false] at moved
          rw [if_neg (Ne.symm left), if_neg (Ne.symm entered)]
          omega
  · have moved := replaced (·.indicated)
    simp only [indicated, hind]
    omega
  · have moved := replaced (·.pfi)
    simp only [pfi, hpfi]
    omega

end Sys2Proof.Machine
end

section
/-! PROOF. The Level Table's invariants under the operations that the commands share: those that touch no
level, the accountings, reports, requests and starts (R54 to R59, R68, R71, R81, R84 to R86, R98). -/

namespace Sys2Proof.Machine

open Sys2Proof

/-! ## What the invariants read -/

/-- What the invariants of the Level Table read of a valve: its records, and of its monitor the tally, the
margin and the two counts. -/
def ValveRecord.table (v : ValveRecord) : List Level × Tally × Margin × Nat × Nat :=
  (v.levels, v.monitor.tally, v.monitor.margin, v.monitor.indicated, v.monitor.distinctPfi)

theorem ValveRecord.level_congr {v w : ValveRecord} (h : w.levels = v.levels) (p : Nat) :
    w.level p = v.level p := by
  unfold ValveRecord.level
  rw [h]

/-- No record is installed at position 0 or beyond the last. -/
theorem ValveRecord.level_beyond {v : ValveRecord} {p : Nat} (h : ¬ (1 ≤ p ∧ p ≤ v.levels.length)) :
    v.level p = {} := by
  by_cases hp : p = 0
  · rw [hp, ValveRecord.level_zero]
  · rw [ValveRecord.level, if_neg hp, List.getD_eq_getElem?_getD,
      List.getElem?_eq_none (by omega), Option.getD_none]

theorem ValveRecord.Inv.mono {v : ValveRecord} {nv rv mdark c c' : Nat} (h : v.Inv nv rv mdark c)
    (hc : c ≤ c') : v.Inv nv rv mdark c' :=
  { h with levels := fun l hl => (h.levels l hl).mono hc }

theorem ValveRecord.Inv.congr {v w : ValveRecord} {nv rv mdark c : Nat} (h : v.Inv nv rv mdark c)
    (same : w.table = v.table) : w.Inv nv rv mdark c := by
  simp only [ValveRecord.table, Prod.mk.injEq] at same
  obtain ⟨levels, tally, margin, indicated, pfi⟩ := same
  rw [ValveRecord.inv_iff] at h ⊢
  rwa [levels, tally, margin, indicated, pfi]

/-- The invariants of the Level Table that hold of `s` hold of `u`. -/
structure KeepsTable (s u : State) : Prop where
  levels : s.LevelInv → u.LevelInv
  stamps : s.StampInv → u.StampInv

namespace KeepsTable

theorem refl (s : State) : KeepsTable s s := ⟨id, id⟩

theorem trans {s u w : State} (h : KeepsTable s u) (h' : KeepsTable u w) : KeepsTable s w :=
  ⟨h'.levels ∘ h.levels, h'.stamps ∘ h.stamps⟩

/-- A fold keeps the table when each of its steps does. -/
theorem foldl {α : Type} {f : State → α → State} (hf : ∀ s a, KeepsTable s (f s a)) (as : List α)
    (s : State) : KeepsTable s (as.foldl f s) := by
  induction as generalizing s with
  | nil => exact refl s
  | cons a as ih => exact (hf s a).trans (ih _)

/-- What moves no table and puts no other image in force. -/
theorem of_table {s u : State} (unit : ∀ im, u.unit = .ready im → s.unit = .ready im)
    (counter : u.counter = s.counter) (valves : ∀ j, (u.valve j).table = (s.valve j).table) :
    KeepsTable s u where
  levels h := ⟨counter ▸ h.counter, fun im hu j => by
    rw [counter]
    exact (h.valves im (unit im hu) j).congr (valves j)⟩
  stamps h := by
    have level (j : Valve) (p : Nat) : (u.valve j).level p = (s.valve j).level p :=
      ValveRecord.level_congr (congrArg Prod.fst (valves j)) p
    refine ⟨fun j p => ?_, counter ▸ h.limit, fun i j p q => ?_⟩
    · rw [level, counter]
      exact h.bound j p
    · rw [level, level]
      exact h.distinct i j p q

/-- What moves no valve. -/
theorem of_valves {s u : State} (unit : ∀ im, u.unit = .ready im → s.unit = .ready im)
    (counter : u.counter = s.counter) (valves : u.valves = s.valves) : KeepsTable s u :=
  of_table unit counter fun j => by unfold State.valve; rw [valves]

/-- What moves neither the unit nor a valve. -/
theorem of_same {s u : State} (unit : u.unit = s.unit) (counter : u.counter = s.counter)
    (valves : u.valves = s.valves) : KeepsTable s u :=
  of_valves (fun _ h => unit ▸ h) counter valves

/-- An operation on one valve that leaves its table. -/
theorem of_own {s u : State} {j : Valve} (unit : u.unit = s.unit) (counter : u.counter = s.counter)
    (others : ∀ i, i ≠ j → u.valve i = s.valve i) (own : (u.valve j).table = (s.valve j).table) :
    KeepsTable s u := by
  refine of_table (fun _ h => unit ▸ h) counter fun i => ?_
  by_cases hi : i = j
  · rw [hi, own]
  · rw [others i hi]

end KeepsTable

/-! ## Single updates -/

theorem State.atInstant_keepsTable (s : State) (t : Instant) : KeepsTable s (s.atInstant t) :=
  .of_same rfl rfl rfl

theorem State.post_keepsTable (s : State) (src : Source) (bits : BitVec 12) :
    KeepsTable s (s.post src bits) := .of_same rfl rfl rfl

theorem State.hand_keepsTable (s : State) (c : TripCause) : KeepsTable s (s.hand c) :=
  .of_same rfl rfl rfl

theorem State.choose_keepsTable (s : State) : KeepsTable s s.choose.2 :=
  .of_same (by simp) (by simp) (by simp)

theorem State.modLink_keepsTable (s : State) (l : Link) (f : LinkState → LinkState) :
    KeepsTable s (s.modLink l f) := .of_same (by simp) (by simp) (by simp)

theorem State.setValve_keepsTable (s : State) (j : Valve) {v : ValveRecord}
    (h : v.table = (s.valve j).table) : KeepsTable s (s.setValve j v) :=
  .of_own rfl rfl (fun _ hi => s.setValve_other _ hi) (by rw [State.setValve_same, h])

theorem State.modValve_keepsTable (s : State) (j : Valve) {f : ValveRecord → ValveRecord}
    (h : (f (s.valve j)).table = (s.valve j).table) : KeepsTable s (s.modValve j f) :=
  s.setValve_keepsTable j h

theorem State.modChannel_keepsTable (s : State) (j : Valve) (f : Channel → Channel) :
    KeepsTable s (s.modChannel j f) := s.modValve_keepsTable j rfl

theorem State.modSchedule_keepsTable (s : State) (j : Valve) (f : ValveRecord → Schedule) :
    KeepsTable s (s.modValve j fun v => { v with schedule := f v }) :=
  s.modValve_keepsTable j rfl

/-! ## Stamps (R57, R58) -/

/-- Stamps stay distinct when each is as it was, 0, or a new one above the counter as it stood, and no two
new ones are alike. -/
theorem State.StampInv.restamped {s u : State} (h : s.StampInv) (grown : s.counter ≤ u.counter)
    (limit : u.counter ≤ 4294967295)
    (each : ∀ j p, ((u.valve j).level p).stamp = ((s.valve j).level p).stamp
      ∨ ((u.valve j).level p).stamp ≤ u.counter
        ∧ (((u.valve j).level p).stamp = 0 ∨ s.counter < ((u.valve j).level p).stamp))
    (fresh : ∀ i j p q, (i, p) ≠ (j, q) → s.counter < ((u.valve i).level p).stamp →
      ((u.valve i).level p).stamp ≠ ((u.valve j).level q).stamp) : u.StampInv := by
  refine ⟨fun j p => ?_, limit, fun i j p q apart set same => ?_⟩
  · rcases each j p with old | ⟨new, -⟩
    · exact old ▸ (h.bound j p).trans grown
    · exact new
  · by_cases new : s.counter < ((u.valve i).level p).stamp
    · exact fresh i j p q apart new same
    · have kept {k : Valve} {n : Nat} (e : ((u.valve k).level n).stamp = ((u.valve i).level p).stamp) :
          ((u.valve k).level n).stamp = ((s.valve k).level n).stamp := by
        rcases each k n with old | ⟨-, zero | above⟩
        · exact old
        · exact absurd (e ▸ zero) set
        · exact absurd (e ▸ above) new
      refine h.distinct i j p q apart ?_ ?_
      · rwa [← kept rfl]
      · rw [← kept rfl, ← kept same.symm, same]

/-! ## An accounting -/

/-- The review at a closing of valve `j` now changes a record's state. -/
def State.closingChanges (s : State) (j : Valve) : Level → Bool :=
  Level.changes (s.par Par.msus) (s.par Par.mdark) (decide (s.qv j ≤ (s.valve j).monitor.indicated))

theorem State.closingChanges_absent (s : State) (j : Valve) : s.closingChanges j {} = false := by
  simp [State.closingChanges, Level.changes, Level.review_idle (l := {}) rfl]

/-- The stamp of a position after a closing (R57, R58). -/
theorem State.closeInterval_stamp (s : State) (j : Valve) (p : Nat) :
    let v := s.valve j
    (((s.closeInterval j).valve j).level p).stamp
      = if s.closingChanges j (v.level p) = false then (v.level p).stamp
        else stampAt s.counter ((v.levels.take p).countP (s.closingChanges j)) := by
  intro v
  obtain ⟨-, -, -, -, -, -, -, own, -⟩ := s.closeInterval_frame j
  by_cases installed : 1 ≤ p ∧ p ≤ v.levels.length
  · obtain ⟨hp, hl⟩ := installed
    have old : v.levels[p - 1]? = some v.levels[p - 1] := List.getElem?_eq_getElem _
    have reviewed := reviewAll_record (s.par Par.msus) (s.par Par.mdark)
      (decide (s.qv j ≤ v.monitor.indicated)) s.counter v.levels _ _ old
    rw [ValveRecord.level_eq hp old, own, ValveRecord.level_eq hp reviewed, Nat.sub_add_cancel hp]
    rfl
  · have blank : ((s.closeInterval j).valve j).level p = {} :=
      ValveRecord.level_beyond (by rwa [own, reviewAll_length])
    rw [blank, ValveRecord.level_beyond installed, s.closingChanges_absent]
    rfl

/-- Past the changes up to a position, those up to a later one that changes are more. -/
theorem countP_take_lt {f : Level → Bool} {v : ValveRecord} {p q : Nat} (hpq : p < q)
    (hq : f (v.level q) = true) (blank : f {} = false) :
    (v.levels.take p).countP f < (v.levels.take q).countP f := by
  have installed : 1 ≤ q ∧ q ≤ v.levels.length := by
    by_contra beyond
    rw [ValveRecord.level_beyond beyond, blank] at hq
    cases hq
  have old : v.levels[q - 1]? = some v.levels[q - 1] := List.getElem?_eq_getElem _
  rw [ValveRecord.level_eq installed.1 old] at hq
  have last : v.levels.take q = v.levels.take (q - 1) ++ [v.levels[q - 1]] := by
    rw [List.take_append_getElem, Nat.sub_add_cancel installed.1]
  have before := (List.take_sublist_take_left (l := v.levels) (show p ≤ q - 1 by omega)).countP_le
    (p := f)
  rw [last, List.countP_append]
  simp [hq]
  omega

theorem stampAt_cases (c n : Nat) :
    stampAt c n = 0 ∨ (stampAt c n = c + n ∧ c + n ≤ 4294967295) := by
  unfold stampAt
  split
  · rename_i h
    exact .inr ⟨rfl, h.2⟩
  · exact .inl rfl

/-- An accounting stamps its changes apart from each other and from what is stamped already (R57, R58). -/
theorem State.closeInterval_stampInv {s : State} (h : s.StampInv) (j : Valve) :
    (s.closeInterval j).StampInv := by
  obtain ⟨counter, -, -, -, -, -, others, -⟩ := s.closeInterval_frame j
  have total : (s.closeInterval j).counter
      = min 4294967295 (s.counter + (s.valve j).levels.countP (s.closingChanges j)) :=
    counter.trans (reviewAll_counter_eq _ _ _ h.limit _)
  have limit := h.limit
  have count (p : Nat) : ((s.valve j).levels.take p).countP (s.closingChanges j)
      ≤ (s.valve j).levels.countP (s.closingChanges j) := (List.take_sublist ..).countP_le
  have kept (i : Valve) (p : Nat) (hi : ¬ (i = j ∧ s.closingChanges j ((s.valve j).level p) = true)) :
      (((s.closeInterval j).valve i).level p).stamp = ((s.valve i).level p).stamp := by
    by_cases own : i = j
    · subst own
      rw [s.closeInterval_stamp, if_pos (Bool.not_eq_true _ ▸ fun e => hi ⟨rfl, e⟩)]
    · rw [others i own]
  have changed (p : Nat) (hp : s.closingChanges j ((s.valve j).level p) = true) :
      (((s.closeInterval j).valve j).level p).stamp
        = stampAt s.counter (((s.valve j).levels.take p).countP (s.closingChanges j)) := by
    rw [s.closeInterval_stamp, if_neg (by simp [hp])]
  refine h.restamped (by omega) (by omega) (fun i p => ?_) fun i k p q apart new same => ?_
  · by_cases hi : i = j ∧ s.closingChanges j ((s.valve j).level p) = true
    · obtain ⟨rfl, hp⟩ := hi
      have counted := count p
      have installed : 0 < p := Nat.pos_of_ne_zero fun e => by
        rw [e, ValveRecord.level_zero, s.closingChanges_absent] at hp
        cases hp
      have first := countP_take_lt installed hp (s.closingChanges_absent i)
      rcases stampAt_cases s.counter (((s.valve i).levels.take p).countP (s.closingChanges i))
        with e | ⟨e, le⟩
      · exact .inr ⟨by rw [changed p hp, e]; exact Nat.zero_le _, .inl (by rw [changed p hp, e])⟩
      · refine .inr ⟨?_, .inr ?_⟩ <;> rw [changed p hp, e]
        · omega
        · exact Nat.lt_add_of_pos_right first
    · exact .inl (kept i p hi)
  · have above {i : Valve} {p : Nat}
        (hs : s.counter < (((s.closeInterval j).valve i).level p).stamp) :
        i = j ∧ s.closingChanges j ((s.valve j).level p) = true := by
      by_contra old
      rw [kept i p old] at hs
      exact absurd (h.bound i p) (by omega)
    obtain ⟨rfl, hp⟩ := above new
    obtain ⟨rfl, hq⟩ := above (same ▸ new)
    have absent := s.closingChanges_absent k
    rw [changed p hp] at new same
    rw [changed q hq] at same
    rcases stampAt_cases s.counter (((s.valve k).levels.take p).countP (s.closingChanges k))
      with e | ⟨e, -⟩
    · omega
    · rcases stampAt_cases s.counter (((s.valve k).levels.take q).countP (s.closingChanges k))
        with e' | ⟨e', -⟩
      · omega
      · rcases Nat.lt_trichotomy p q with lt | rfl | lt
        · have := countP_take_lt lt hq absent
          omega
        · exact apart rfl
        · have := countP_take_lt lt hp absent
          omega

theorem State.closeInterval_keepsTable (s : State) (j : Valve) :
    KeepsTable s (s.closeInterval j) := by
  obtain ⟨counter, -, -, -, -, -, others, -⟩ := s.closeInterval_frame j
  obtain ⟨grown, limit⟩ := reviewAll_counter (s.par Par.msus) (s.par Par.mdark)
    (decide (s.qv j ≤ (s.valve j).monitor.indicated)) s.counter (s.valve j).levels
  rw [← counter] at grown limit
  refine ⟨fun h => ⟨limit h.counter, fun im hu i => ?_⟩, fun h => State.closeInterval_stampInv h j⟩
  rw [(s.closeInterval_rest j).unit] at hu
  by_cases hi : i = j
  · subst hi
    exact State.closeInterval_inv hu h.counter (h.valves im hu i)
  · rw [others i hi]
    exact (h.valves im hu i).mono grown

end Sys2Proof.Machine
end

section
/-! PROOF. A record replaced by a stamped change: by a report, by RETIRE, RESTORE or CLEAR COUNTS (R57, R58,
R60, R65 to R68, R76, R78, R79). -/

namespace Sys2Proof.Machine

open Sys2Proof

/-! ## The change -/

/-- The record of position `p` replaced by a stamped change, the valve's monitor with it (R57, R59). -/
def State.replaceLevel (s : State) (j : Valve) (p : Nat) (l : Level) (m : Monitor) : State :=
  ({ s with counter := nextCounter s.counter } : State).setValve j { s.valve j with
    levels := (s.valve j).levels.set (p - 1) { l with stamp := nextStamp s.counter }, monitor := m }

theorem State.replaceLevel_valve (s : State) (j : Valve) (p : Nat) (l : Level) (m : Monitor) :
    (s.replaceLevel j p l m).valve j = { s.valve j with
      levels := (s.valve j).levels.set (p - 1) { l with stamp := nextStamp s.counter }
      monitor := m } := State.setValve_same ..

theorem State.replaceLevel_other (s : State) {i j : Valve} (h : i ≠ j) (p : Nat) (l : Level)
    (m : Monitor) : (s.replaceLevel j p l m).valve i = s.valve i := State.setValve_other _ _ h

theorem State.replaceLevel_rest (s : State) (j : Valve) (p : Nat) (l : Level) (m : Monitor) :
    RestKept s (s.replaceLevel j p l m) :=
  (State.update_rest s _ s.guard s.group s.tracker s.sent s.handed).trans (State.setValve_rest ..)

theorem State.stampLevel_eq (s : State) (j : Valve) (p : Nat) (l : Level) :
    s.stampLevel j p l = s.replaceLevel j p l (s.valve j).monitor := rfl

/-- A report that changes its record's state (R60, R65, R68). -/
theorem State.applyAnswer_changed {s : State} {j : Valve} {p : Nat} {a : Answer}
    (h : a.level.state ≠ ((s.valve j).level p).state) :
    s.applyAnswer j p a = (s.replaceLevel j p a.level ((s.valve j).monitor.afterReport a)).levelChange j
      (((s.valve j).level p).state, a.level.state) := by
  simp only [State.applyAnswer, ne_eq, h, not_false_eq_true, if_true]
  rfl

/-- An accepted RETIRE: the record replaced, the indicated count without it, the change of state handed on
(R68, R76). -/
theorem State.retireLevel_eq (s : State) (k : Link) (j : Valve) (p : Nat) :
    let v := s.valve j
    let l := v.level p
    s.retireLevel k j p = ((s.replaceLevel j p (l.retire k) { v.monitor with
        indicated := v.monitor.indicated
          - if l.indicated = true ∧ l.state.counting = true then 1 else 0 }).handChange j
      l.state .retired).settle := by
  intro v l
  have uncounted : ((s.replaceLevel j p (l.retire k) v.monitor).modValve j fun r =>
      { r with monitor := { r.monitor with indicated := r.monitor.indicated - 1 } })
      = s.replaceLevel j p (l.retire k) { v.monitor with indicated := v.monitor.indicated - 1 } := by
    unfold State.modValve
    rw [State.replaceLevel_valve]
    exact State.setValve_setValve ..
  by_cases h : l.indicated = true ∧ l.state.counting = true
  · have counted : (l.state.counting && l.indicated) = true := by simp [h]
    rw [if_pos h, ← uncounted]
    simp only [State.retireLevel, State.stampLevel_eq, l, v, counted, if_true]
  · have counted : ¬ (l.state.counting && l.indicated) = true := by
      simpa [and_comm] using h
    rw [if_neg h]
    simp only [State.retireLevel, State.stampLevel_eq, l, v, counted]
    rfl

/-! ## What it keeps -/

/-- A change of state handed on moves tally and margin alone, and only where there is one. -/
theorem State.handChange_valve (s : State) (j : Valve) (old new : LevelState) :
    let m := (s.valve j).monitor
    let tally := if old = new then m.tally else m.tally.move old new
    (s.handChange j old new).valve j = { s.valve j with monitor := { m with
      tally := tally, margin := if old = new then m.margin else s.marginAt j tally } } := by
  intro m tally
  by_cases h : old = new
  · simp only [State.handChange, tally, if_pos h, m]
  · have own := (s.levelChange_frame j (old, new)).own
    rw [TallyMoved, s.levelChange_monitor] at own
    simp only [State.handChange, tally, if_neg h, m]
    exact own

theorem State.handChange_same (s : State) (j : Valve) (st : LevelState) : s.handChange j st st = s :=
  if_pos rfl

theorem State.handChange_changed {s : State} {old new : LevelState} (h : old ≠ new) (j : Valve) :
    s.handChange j old new = s.levelChange j (old, new) := if_neg h

theorem State.handChange_frame (s : State) (j : Valve) (old new : LevelState) :
    OnlyTally s (s.handChange j old new) j := by
  unfold State.handChange
  split
  · exact .refl s j
  · exact s.levelChange_frame ..

theorem State.handChange_rest (s : State) (j : Valve) (old new : LevelState) :
    RestKept s (s.handChange j old new) := by
  unfold State.handChange
  split
  · exact .refl s
  · exact s.levelChange_rest ..

section
variable {s : State} {j : Valve} {p : Nat} {l' : Level} {m : Monitor}
  (installed : ((s.valve j).level p).state ≠ .absent)
include installed

/-- A record replaced takes the next stamp, and no other is touched. -/
theorem State.replaceLevel_stamp (i : Valve) (q : Nat) :
    (((s.replaceLevel j p l' m).valve i).level q).stamp
      = if i = j ∧ q = p then nextStamp s.counter else ((s.valve i).level q).stamp := by
  by_cases hi : i = j
  · subst hi
    obtain ⟨first, last, -⟩ := ValveRecord.installed installed
    have level := ValveRecord.setLevel_level first last { l' with stamp := nextStamp s.counter } q
    rw [ValveRecord.level_congr (v := (s.valve i).setLevel p { l' with stamp := nextStamp s.counter })
      (by rw [s.replaceLevel_valve]; rfl) q, level]
    by_cases hq : q = p <;> simp [hq]
  · rw [s.replaceLevel_other hi, if_neg fun h => hi h.1]

/-- A record replaced by one in range keeps the table, when the valve's counts follow it and the change of
state is handed on. -/
theorem State.replaceLevel_keepsTable
    (record : ∀ mdark c, ((s.valve j).level p).Inv mdark c → l'.Inv mdark c)
    (tally : m.tally = (s.valve j).monitor.tally) (margin : m.margin = (s.valve j).monitor.margin)
    (indicated : m.indicated = (s.valve j).monitor.indicated + l'.indicated.toNat
      - ((s.valve j).level p).indicated.toNat)
    (pfi : m.distinctPfi = (s.valve j).monitor.distinctPfi + l'.pfi.toNat
      - ((s.valve j).level p).pfi.toNat) :
    KeepsTable s ((s.replaceLevel j p l' m).handChange j ((s.valve j).level p).state l'.state) := by
  obtain ⟨grown, limit⟩ := nextCounter_bounds (c := s.counter)
  have frame := (s.replaceLevel j p l' m).handChange_frame j ((s.valve j).level p).state l'.state
  have counter : ((s.replaceLevel j p l' m).handChange j ((s.valve j).level p).state
      l'.state).counter = nextCounter s.counter := frame.counter
  refine ⟨fun h => ⟨counter ▸ limit h.counter, fun im hu i => ?_⟩, fun h => ?_⟩
  · rw [(State.handChange_rest ..).unit, (s.replaceLevel_rest ..).unit] at hu
    have inv := h.valves im hu i
    rw [counter]
    by_cases hi : i = j
    · subst hi
      obtain ⟨-, records, -, judged, -⟩ := ValveRecord.inv_iff.1 inv
      obtain ⟨-, -, place⟩ := ValveRecord.installed installed
      have fits := (record _ _ (records _ (List.mem_of_getElem? place))).stamped
        (nextStamp_le_nextCounter s.counter)
      have marginAt (t : Tally) : (s.replaceLevel i p l' m).marginAt i t
          = marginOf t.failed (Par.rv i im) := by
        unfold State.marginAt
        rw [(s.replaceLevel_rest ..).par, State.par_ready hu]
      rw [State.handChange_valve, s.replaceLevel_valve]
      refine inv.replaced installed grown fits ?_ ?_ indicated pfi
      · simp only [tally]
      · simp only [marginAt, tally, margin, judged]
        split <;> rfl
    · rw [frame.others i hi, s.replaceLevel_other hi]
      exact inv.mono grown
  · have level (i : Valve) (q : Nat) : (((s.replaceLevel j p l' m).handChange j
        ((s.valve j).level p).state l'.state).valve i).level q
        = ((s.replaceLevel j p l' m).valve i).level q := by
      refine ValveRecord.level_congr ?_ q
      by_cases hi : i = j
      · subst hi
        rw [State.handChange_valve]
      · rw [frame.others i hi]
    have stamp (i : Valve) (q : Nat) := s.replaceLevel_stamp (l' := l') (m := m) installed i q
    have new : nextStamp s.counter = 0 ∨ s.counter < nextStamp s.counter := by
      unfold nextStamp
      split <;> omega
    have kept (i : Valve) (q : Nat) (hi : ¬ (i = j ∧ q = p)) :
        (((s.replaceLevel j p l' m).valve i).level q).stamp = ((s.valve i).level q).stamp := by
      rw [stamp, if_neg hi]
    refine h.restamped (counter ▸ grown) (counter ▸ limit h.limit) (fun i q => ?_)
      fun i k q q' apart fresh same => ?_
    · rw [level, stamp, counter]
      split
      · exact .inr ⟨nextStamp_le_nextCounter _, new⟩
      · exact .inl rfl
    · rw [level] at fresh same
      rw [level] at same
      have above {i : Valve} {q : Nat}
          (hs : s.counter < (((s.replaceLevel j p l' m).valve i).level q).stamp) :
          i = j ∧ q = p := by
        by_contra old
        rw [kept i q old] at hs
        exact absurd (h.bound i q) (Nat.not_le.2 hs)
      obtain ⟨rfl, rfl⟩ := above fresh
      obtain ⟨rfl, rfl⟩ := above (same ▸ fresh)
      exact apart rfl

/-- A record replaced by one in range of the same state and stamp keeps the table, when the valve's counts
follow it. -/
theorem State.setLevel_keepsTable
    (record : ∀ mdark c, ((s.valve j).level p).Inv mdark c → l'.Inv mdark c)
    (state : l'.state = ((s.valve j).level p).state) (stamp : l'.stamp = ((s.valve j).level p).stamp)
    (tally : m.tally = (s.valve j).monitor.tally) (margin : m.margin = (s.valve j).monitor.margin)
    (indicated : m.indicated = (s.valve j).monitor.indicated + l'.indicated.toNat
      - ((s.valve j).level p).indicated.toNat)
    (pfi : m.distinctPfi = (s.valve j).monitor.distinctPfi + l'.pfi.toNat
      - ((s.valve j).level p).pfi.toNat) :
    KeepsTable s (s.setValve j { s.valve j with
      levels := (s.valve j).levels.set (p - 1) l', monitor := m }) := by
  refine ⟨fun h => ⟨h.counter, fun im hu i => ?_⟩, fun h => ?_⟩
  · have inv := h.valves im hu i
    by_cases hi : i = j
    · subst hi
      obtain ⟨-, records, -, judged, -⟩ := ValveRecord.inv_iff.1 inv
      obtain ⟨-, -, place⟩ := ValveRecord.installed installed
      rw [State.setValve_same]
      refine inv.replaced installed le_rfl (record _ _ (records _ (List.mem_of_getElem? place))) ?_ ?_
        indicated pfi
      · rw [tally, if_pos state.symm]
      · rw [margin, tally, judged]
    · rwa [State.setValve_other _ _ hi]
  · have kept (i : Valve) (q : Nat) : (((s.setValve j { s.valve j with
        levels := (s.valve j).levels.set (p - 1) l', monitor := m }).valve i).level q).stamp
        = ((s.valve i).level q).stamp := by
      by_cases hi : i = j
      · subst hi
        obtain ⟨first, last, -⟩ := ValveRecord.installed installed
        rw [State.setValve_same,
          ValveRecord.level_congr (v := (s.valve i).setLevel p l') (by rfl) q,
          ValveRecord.setLevel_level first last]
        by_cases hq : q = p <;> simp [hq, stamp]
      · rw [State.setValve_other _ _ hi]
    refine h.restamped le_rfl h.limit (fun i q => .inl (kept i q)) fun i _ q _ _ fresh => ?_
    rw [kept] at fresh
    exact absurd (h.bound i q) (Nat.not_le.2 fresh)

end

/-! ## Reports (R61 to R68) -/

section
variable {l : Level} (mark : Mark) (b : Instant) (cycle : Word16)

/-- A stray report raises the stray count and sets the last report (R62, R67). -/
def Level.strayed (l : Level) (cls : ReportClass) (b : Instant) : Answer where
  level := { l with lastReport := some (cls, b), strayCount := bump Config.count8 l.strayCount }
  standing := .stray

theorem Level.take_ind_counting (h : l.state.counting = true) : l.take .ind mark b cycle =
    { level := { l with lastReport := some (.ind, b), indicated := l.indicated || mark == .interval }
      standing := .counting, indSet := mark == .interval && !l.indicated } := if_pos h

theorem Level.take_ind_stray (h : l.state.counting = false) :
    l.take .ind mark b cycle = l.strayed .ind b := if_neg (by simp [h])

theorem Level.take_pfi_counting (h : l.state.counting = true) : l.take .pfi mark b cycle =
    { level := { l with lastReport := some (.pfi, b), pfiCount := bump Config.count8 l.pfiCount
                        pfi := true, indicated := l.indicated || mark == .interval }
      standing := .counting, indSet := mark == .interval && !l.indicated, pfiSet := !l.pfi } := if_pos h

theorem Level.take_pfi_faulted (h : l.state = .faulted) : l.take .pfi mark b cycle =
    { level := { l with lastReport := some (.pfi, b), pfiCount := bump Config.count8 l.pfiCount
                        pfi := true }
      standing := .protectiveOnly, pfiSet := !l.pfi } :=
  (if_neg (by simp [h, LevelState.counting])).trans (if_pos h)

theorem Level.take_pfi_stray (h : l.state.counting = false) (faulted : l.state ≠ .faulted) :
    l.take .pfi mark b cycle = l.strayed .pfi b := (if_neg (by simp [h])).trans (if_neg faulted)

theorem Level.take_lft_retired (h : l.state = .retired) :
    l.take .lft mark b cycle = l.strayed .lft b := if_pos h

theorem Level.take_lft_fault (h : l.state ≠ .retired) : l.take .lft mark b cycle =
    { level := { l with lastReport := some (.lft, b), state := .faulted
                        faultCount := bump Config.count8 l.faultCount
                        firstFault := some (l.firstFault.getD cycle)
                        indicated := l.indicated && !l.state.counting }
      standing := .fault, indCleared := l.indicated && l.state.counting } := if_neg h

/-- A property of a report's answer, shown by its standing and its class. -/
theorem Level.take_induction {motive : ReportClass → Answer → Prop}
    (ind : l.state.counting = true → motive .ind
      { level := { l with lastReport := some (.ind, b), indicated := l.indicated || mark == .interval }
        standing := .counting, indSet := mark == .interval && !l.indicated })
    (pfi : l.state.counting = true → motive .pfi
      { level := { l with lastReport := some (.pfi, b), pfiCount := bump Config.count8 l.pfiCount
                          pfi := true, indicated := l.indicated || mark == .interval }
        standing := .counting, indSet := mark == .interval && !l.indicated, pfiSet := !l.pfi })
    (protectiveOnly : l.state = .faulted → motive .pfi
      { level := { l with lastReport := some (.pfi, b), pfiCount := bump Config.count8 l.pfiCount
                          pfi := true }
        standing := .protectiveOnly, pfiSet := !l.pfi })
    (fault : l.state ≠ .retired → motive .lft
      { level := { l with lastReport := some (.lft, b), state := .faulted
                          faultCount := bump Config.count8 l.faultCount
                          firstFault := some (l.firstFault.getD cycle)
                          indicated := l.indicated && !l.state.counting }
        standing := .fault, indCleared := l.indicated && l.state.counting })
    (stray : ∀ cls, motive cls (l.strayed cls b)) (cls : ReportClass) :
    motive cls (l.take cls mark b cycle) := by
  cases cls with
  | ind =>
    cases h : l.state.counting with
    | true => exact l.take_ind_counting mark b cycle h ▸ ind h
    | false => exact l.take_ind_stray mark b cycle h ▸ stray .ind
  | pfi =>
    cases h : l.state.counting with
    | true => exact l.take_pfi_counting mark b cycle h ▸ pfi h
    | false =>
      by_cases faulted : l.state = .faulted
      · exact l.take_pfi_faulted mark b cycle faulted ▸ protectiveOnly faulted
      · exact l.take_pfi_stray mark b cycle h faulted ▸ stray .pfi
  | lft =>
    by_cases h : l.state = .retired
    · exact l.take_lft_retired mark b cycle h ▸ stray .lft
    · exact l.take_lft_fault mark b cycle h ▸ fault h

end

/-- The record that a report leaves is in range when the record it found is (R55, R62 to R68). -/
theorem Level.Inv.take {l : Level} {mdark c : Nat} (h : l.Inv mdark c) (cls : ReportClass)
    (mark : Mark) (b : Instant) (cycle : Word16) : (l.take cls mark b cycle).level.Inv mdark c := by
  obtain ⟨installed, miss, indicated, retiredBy, firstFault, ⟨pfi, fault, stray⟩, stamp⟩ := h
  refine Level.take_induction (motive := fun _ a => a.level.Inv mdark c) mark b cycle
    (fun counts => ?_) (fun counts => ?_) (fun _ => ?_) (fun notRetired => ?_) (fun _ => ?_) cls
  · exact ⟨installed, miss, fun _ => counts, retiredBy, firstFault, ⟨pfi, fault, stray⟩, stamp⟩
  · exact ⟨installed, miss, fun _ => counts, retiredBy, firstFault, ⟨bump_le _ _, fault, stray⟩, stamp⟩
  · exact ⟨installed, miss, indicated, retiredBy, firstFault, ⟨bump_le _ _, fault, stray⟩, stamp⟩
  · refine ⟨nofun, miss, fun flag => ?_, ?_, fun _ => rfl, ⟨pfi, bump_le _ _, stray⟩, stamp⟩
    · simp only [Bool.and_eq_true, Bool.not_eq_true'] at flag
      rw [indicated flag.1] at flag
      cases flag.2
    · exact iff_of_false (fun some => notRetired (retiredBy.1 some)) nofun
  · exact ⟨installed, miss, indicated, retiredBy, firstFault, ⟨pfi, fault, bump_le _ _⟩, stamp⟩

/-- A report's answer leaves the stamp, and says by how much the valve's counts follow its record (R61,
R98). -/
theorem Level.take_counts (l : Level) (cls : ReportClass) (mark : Mark) (b : Instant)
    (cycle : Word16) :
    let a := l.take cls mark b cycle
    a.level.stamp = l.stamp
    ∧ l.indicated.toNat + a.indSet.toNat = a.level.indicated.toNat + a.indCleared.toNat
    ∧ l.pfi.toNat + a.pfiSet.toNat = a.level.pfi.toNat := by
  refine Level.take_induction (motive := fun _ a => a.level.stamp = l.stamp
    ∧ l.indicated.toNat + a.indSet.toNat = a.level.indicated.toNat + a.indCleared.toNat
    ∧ l.pfi.toNat + a.pfiSet.toNat = a.level.pfi.toNat) mark b cycle
    (fun _ => ⟨rfl, ?_, ?_⟩) (fun _ => ⟨rfl, ?_, ?_⟩) (fun _ => ⟨rfl, rfl, ?_⟩)
    (fun _ => ⟨rfl, ?_, rfl⟩) (fun _ => ⟨rfl, rfl, rfl⟩) cls
  · cases l.indicated <;> cases mark <;> rfl
  · rfl
  · cases l.indicated <;> cases mark <;> rfl
  · cases l.pfi <;> rfl
  · cases l.pfi <;> rfl
  · cases l.indicated <;> cases l.state.counting <;> rfl

/-- The report of a valve that its table has answered keeps the table (R60, R98). -/
theorem State.applyAnswer_keepsTable {s : State} {j : Valve} {p : Nat}
    (installed : ((s.valve j).level p).state ≠ .absent) (cls : ReportClass) (mark : Mark)
    (b : Instant) (cycle : Word16) :
    KeepsTable s (s.applyAnswer j p (((s.valve j).level p).take cls mark b cycle)) := by
  set l := (s.valve j).level p with hl
  obtain ⟨stamp, indicated, pfi⟩ := l.take_counts cls mark b cycle
  have record (mdark c : Nat) (h : l.Inv mdark c) : (l.take cls mark b cycle).level.Inv mdark c :=
    h.take cls mark b cycle
  generalize l.take cls mark b cycle = a at *
  have counts : ((s.valve j).monitor.afterReport a).indicated
      = (s.valve j).monitor.indicated + a.level.indicated.toNat - l.indicated.toNat := by
    simp only [Monitor.afterReport]
    omega
  have distinct : ((s.valve j).monitor.afterReport a).distinctPfi
      = (s.valve j).monitor.distinctPfi + a.level.pfi.toNat - l.pfi.toNat := by
    simp only [Monitor.afterReport]
    omega
  by_cases same : a.level.state = l.state
  · rw [State.applyAnswer_same same]
    exact State.setLevel_keepsTable installed record same stamp rfl rfl counts distinct
  · rw [State.applyAnswer_changed same]
    have keeps := State.replaceLevel_keepsTable (s := s) (l' := a.level)
      (m := (s.valve j).monitor.afterReport a) installed record rfl rfl counts distinct
    rwa [State.handChange_changed (Ne.symm same)] at keeps

/-! ## Maintenance (R76, R78, R79) -/

section
variable {s : State} {j : Valve} {p : Nat} (installed : ((s.valve j).level p).state ≠ .absent)
include installed

theorem State.retired_keepsTable (k : Link) :
    let v := s.valve j
    let l := v.level p
    KeepsTable s ((s.replaceLevel j p (l.retire k) { v.monitor with
      indicated := v.monitor.indicated
        - if l.indicated = true ∧ l.state.counting = true then 1 else 0 }).handChange j
      l.state .retired) := by
  intro v l
  refine State.replaceLevel_keepsTable (l' := l.retire k) installed (fun mdark c h => ?_) rfl rfl ?_ ?_
  · obtain ⟨-, miss, indicated, -, firstFault, counts, stamp⟩ := h
    refine ⟨nofun, miss, fun flag => ?_, iff_of_true rfl rfl, firstFault, counts, stamp⟩
    simp only [Level.retire, Bool.and_eq_true, Bool.not_eq_true'] at flag
    rw [indicated flag.1] at flag
    cases flag.2
  · show v.monitor.indicated - _ = v.monitor.indicated
      + (l.indicated && !l.state.counting).toNat - l.indicated.toNat
    cases l.indicated <;> cases l.state.counting <;> simp
  · show v.monitor.distinctPfi = v.monitor.distinctPfi + l.pfi.toNat - l.pfi.toNat
    omega

theorem State.restored_keepsTable :
    KeepsTable s ((s.replaceLevel j p ((s.valve j).level p).restore (s.valve j).monitor).handChange j
      ((s.valve j).level p).state .unproven) :=
  State.replaceLevel_keepsTable (l' := ((s.valve j).level p).restore) installed
    (fun _ _ h => ⟨nofun, Nat.zero_le _, fun _ => rfl, by simp [Level.restore], nofun,
      ⟨Nat.zero_le _, Nat.zero_le _, Nat.zero_le _⟩, h.stamp⟩)
    rfl rfl (Nat.add_sub_cancel ..).symm (Nat.add_sub_cancel ..).symm

theorem State.cleared_keepsTable :
    KeepsTable s (s.replaceLevel j p ((s.valve j).level p).clearCounts (s.valve j).monitor) := by
  have same : (s.replaceLevel j p ((s.valve j).level p).clearCounts (s.valve j).monitor).handChange j
      ((s.valve j).level p).state ((s.valve j).level p).clearCounts.state
      = s.replaceLevel j p ((s.valve j).level p).clearCounts (s.valve j).monitor :=
    State.handChange_same ..
  rw [← same]
  exact State.replaceLevel_keepsTable installed
    (fun _ _ h => ⟨h.installed, h.miss, h.indicated, h.retiredBy, nofun,
      ⟨Nat.zero_le _, Nat.zero_le _, Nat.zero_le _⟩, h.stamp⟩)
    rfl rfl (Nat.add_sub_cancel ..).symm (Nat.add_sub_cancel ..).symm

end

end Sys2Proof.Machine
end

section
/-! PROOF. Firings, modes, trips, references, messages, frames, requests and starts keep the Level Table's
invariants. -/

namespace Sys2Proof.Machine

open Sys2Proof

/-! ## Fire messages -/

theorem State.failCommutation_keepsTable (s : State) (j : Valve) :
    KeepsTable s (s.failCommutation j) := by
  have counted : KeepsTable s (s.modValve j fun v =>
      { v with commFailures := bump Config.count16 v.commFailures }) := s.modValve_keepsTable j rfl
  exact counted.trans (.of_same rfl rfl rfl)

theorem State.measure_keepsTable (s : State) (j : Valve) (b d : Instant) :
    KeepsTable s (s.measure j b d) := by
  have measured : KeepsTable s (s.modValve j fun v =>
      { v with lastGamma := some (gammaOf b d s.tracker.period) }) := s.modValve_keepsTable j rfl
  exact measured.trans (.of_same rfl rfl rfl)

theorem State.sendIdle_keepsTable (s : State) (j : Valve) : KeepsTable s (s.sendIdle j) :=
  .of_own (j := j) rfl rfl (fun i hi => by rw [State.sendIdle_valve, if_neg hi])
    (by rw [State.sendIdle_valve, if_pos rfl]; rfl)

theorem State.messaged_keepsTable (s : State) (k : FireKind) (j : Valve) :
    KeepsTable s (s.messaged k j) := by
  obtain ⟨levels, -, -, -, tally, margin, indicated, pfi, -⟩ :=
    (s.valve j).messaged_frame k s.timebase
  refine .of_own (j := j) rfl rfl (fun i hi => s.setValve_other _ hi) ?_
  rw [State.messaged_valve, ValveRecord.table, levels, tally, margin, indicated, pfi]
  rfl

theorem State.commutate_keepsTable (s : State) (j : Valve) : KeepsTable s (s.commutate j) := by
  unfold State.commutate
  simp only
  split
  · split
    · split
      · exact s.failCommutation_keepsTable j
      · exact s.setValve_keepsTable j rfl
    · exact s.setValve_keepsTable j rfl
  · exact .refl s

/-- A fire message touches the table at the closing alone (R88). -/
theorem State.fire_keepsTable (s : State) (k : FireKind) (j : Valve) :
    KeepsTable s (s.fire k j) := by
  have own : KeepsTable s (s.fireOwn k j) := by
    rw [s.fireOwn_eq]
    split
    · exact s.messaged_keepsTable k j
    · exact ((s.messaged_keepsTable k j).trans (State.modValve_keepsTable _ j rfl)).trans
        (State.closeInterval_keepsTable _ j)
  rw [State.fire_eq]
  split
  · exact own.trans (State.commutate_keepsTable ..)
  · exact own

theorem State.issue_keepsTable (s : State) (k : FireKind) (j : Valve) :
    KeepsTable s (s.issue k j) :=
  (s.fire_keepsTable k j).trans ((s.fire k j).modSchedule_keepsTable j
    fun v => { v.schedule with fireAt := none, expiry := none })

theorem State.fireLegs_keepsTable (s : State) : KeepsTable s s.fireLegs := by
  unfold State.fireLegs
  split
  · exact .refl s
  · exact s.choose_keepsTable.trans (.foldl (fun s j => State.fire_keepsTable s .bypass j) _ _)

/-! ## Modes and trips -/

theorem State.leaveMode_keepsTable (s : State) : KeepsTable s s.leaveMode := by
  refine .of_table (by rw [s.leaveMode_eq]; exact fun _ => id) (by rw [s.leaveMode_eq]) fun j => ?_
  rw [s.leaveMode_valve]
  split <;> rfl

theorem State.enterBlocked_keepsTable (s : State) : KeepsTable s s.enterBlocked :=
  s.leaveMode_keepsTable.trans (.of_same rfl rfl rfl)

theorem State.refuse_keepsTable (s : State) (r : RefusalReason) : KeepsTable s (s.refuse r) :=
  .of_same rfl rfl rfl

theorem State.addTrip_keepsTable (s : State) (c : TripCause) : KeepsTable s (s.addTrip c) := by
  rw [(s.addTrip_added c).eq]
  exact .of_same rfl rfl rfl

theorem State.enterBypass_keepsTable (s : State) : KeepsTable s s.enterBypass := by
  have entered : KeepsTable s s.bypassEntered :=
    s.leaveMode_keepsTable.trans (.of_same (by rw [s.leaveMode_eq]; rfl) (by rw [s.leaveMode_eq]; rfl) rfl)
  have fired : KeepsTable s s.bypassFired :=
    entered.trans (.foldl (fun w j => State.fire_keepsTable w .bypass j) _ _)
  rw [s.enterBypass_added.eq]
  exact fired.trans (.of_same rfl rfl rfl)

theorem State.latch_keepsTable (s : State) (c : TripCause) : KeepsTable s (s.latch c) := by
  have acts (w : State) : KeepsTable w (w.actOnTrip c) := by
    unfold State.actOnTrip
    split
    · exact .refl w
    · exact .refl w
    · exact w.enterBlocked_keepsTable.trans (State.refuse_keepsTable ..)
    · split
      · exact w.enterBypass_keepsTable
      · exact .refl w
  unfold State.latch
  split
  · exact .refl s
  · split
    · exact s.addTrip_keepsTable c
    · exact (s.addTrip_keepsTable c).trans (acts _)

theorem State.settle_keepsTable (s : State) : KeepsTable s s.settle :=
  .trans (.of_same rfl rfl rfl : KeepsTable s { s with handed := [] })
    (.foldl State.latch_keepsTable _ _)

theorem State.requestRun_keepsTable (s : State) (o : Origin) : KeepsTable s (s.requestRun o) := by
  unfold State.requestRun
  split
  · exact .of_same rfl rfl rfl
  · exact s.refuse_keepsTable _

theorem State.judgeRequest_keepsTable (s : State) (r : Requested) :
    KeepsTable s (s.judgeRequest r) := by
  unfold State.judgeRequest
  split
  · split
    · exact .refl s
    · exact s.refuse_keepsTable _
    · exact s.refuse_keepsTable _
  · split
    case h_5 | h_6 => exact s.requestRun_keepsTable _
    case h_7 | h_8 | h_9 => exact s.enterBlocked_keepsTable
    case h_10 | h_11 | h_12 => exact s.enterBypass_keepsTable
    all_goals exact .refl s

theorem State.clearTrips_keepsTable (s : State) : KeepsTable s s.clearTrips := by
  unfold State.clearTrips
  split
  · exact .of_same rfl rfl rfl
  · exact .refl s

theorem State.recheck_keepsTable (s : State) : KeepsTable s s.recheck := by
  unfold State.recheck
  split
  · split
    · exact .of_same rfl rfl rfl
    · exact s.enterBlocked_keepsTable.trans (State.refuse_keepsTable ..)
  · exact .refl s

/-! ## References -/

theorem State.handReference_keepsTable (s : State) (im : Image) (tref : Instant) :
    KeepsTable s (s.handReference im tref) := by
  have settled (w : State) : KeepsTable w w.recheckAndSettle := by
    unfold State.recheckAndSettle
    split
    · split
      · exact w.recheck_keepsTable
      · simp only
        split
        · exact (w.choose_keepsTable.trans (State.settle_keepsTable _)).trans
            (State.recheck_keepsTable _)
        · exact (w.choose_keepsTable.trans (State.recheck_keepsTable _)).trans
            (State.settle_keepsTable _)
    · exact w.settle_keepsTable
  rw [State.handReference_eq]
  refine .trans ?_ (settled _)
  refine .of_table (fun _ h => ?_) (by rw [s.referenceTaken_only]) fun j => ?_
  · rwa [(s.referenceTaken_rest im tref).unit] at h
  · rw [s.referenceTaken_valve, ValveRecord.offered]
    split <;> rfl

/-- The tracker is no part of the table. -/
theorem State.tracker_keepsTable (s : State) (tr : Tracker) : KeepsTable s { s with tracker := tr } :=
  .of_same rfl rfl rfl

theorem State.judgeCrossing_keepsTable (s : State) (im : Image) (t0 : Instant) :
    KeepsTable s (s.judgeCrossing im t0) := by
  have refers (p : Nat) (f : Tracker → Tracker) : KeepsTable s (s.referAt im t0 p f) :=
    (s.tracker_keepsTable _).trans (State.handReference_keepsTable ..)
  have locks (p : Nat) : KeepsTable s (s.lockAt im t0 p) :=
    ((s.tracker_keepsTable (s.tracker.lock t0 p)).trans (State.post_keepsTable ..)).trans
      (State.handReference_keepsTable ..)
  have discards : KeepsTable s s.discardCrossing := .of_same rfl rfl rfl
  unfold State.judgeCrossing
  simp only
  split
  · split
    · split
      · exact refers ..
      all_goals
        split
        · exact locks _
        · exact refers ..
    · split
      · exact discards
      · exact discards
      · exact refers ..
      · exact refers ..
  · split
    · exact discards
    · exact discards
    · exact refers ..
    · exact refers ..

theorem State.synthetic_keepsTable (s : State) (im : Image) (z : Instant) :
    KeepsTable s (s.synthetic im z) := by
  unfold State.synthetic
  simp only
  split
  · exact .refl s
  · exact .of_same rfl rfl rfl
  · split <;> exact .of_same rfl rfl rfl
  · exact .of_same rfl rfl rfl

/-! ## Messages and reports -/

theorem State.superviseMessage_keepsTable (s : State) (j : Valve) :
    KeepsTable s (s.superviseMessage j) := by
  have heard : KeepsTable s (s.setValve j { s.valve j with
      channel := (s.valve j).channel.heard s.timebase }) := s.setValve_keepsTable j rfl
  rw [s.superviseMessage_eq]
  split
  · exact heard.trans (State.post_keepsTable ..)
  · exact heard

theorem State.countNoise_keepsTable (s : State) (im : Image) (j : Valve) :
    KeepsTable s (s.countNoise im j) := by
  have counted : KeepsTable s (s.modChannel j fun c => { c with
      noiseTotal := bump Config.count16 c.noiseTotal, noiseCycle := bump Config.count8 c.noiseCycle }) :=
    s.modChannel_keepsTable j _
  unfold State.countNoise
  simp only
  split
  · exact counted.trans (State.post_keepsTable ..)
  · exact counted

theorem State.fireProtective_keepsTable (s : State) (j : Valve) :
    KeepsTable s (s.fireProtective j) := by
  have fired := (s.fire_keepsTable .protective j).trans
    (State.post_keepsTable (s.fire .protective j) (.valve j) valveProtective)
  unfold State.fireProtective
  simp only
  split
  · exact fired.trans (State.issue_keepsTable ..)
  · exact fired

theorem State.quorumReached_keepsTable (s : State) (j : Valve) (b : Instant) :
    KeepsTable s (s.quorumReached j b) := by
  unfold State.quorumReached State.blockBack
  simp only
  split
  · split
    · exact .refl s
    · exact s.setValve_keepsTable j rfl
  · split
    · split
      · refine .trans ?_ (State.measure_keepsTable ..)
        exact s.setValve_keepsTable j rfl
      · exact s.setValve_keepsTable j rfl
    · split
      · exact (s.issue_keepsTable ..).trans (State.post_keepsTable ..)
      · exact .refl s

theorem State.actOnIndication_keepsTable (s : State) (j : Valve) (m : Mark) (a : Answer)
    (b : Instant) : KeepsTable s (s.actOnIndication j m a b) := by
  unfold State.actOnIndication
  split
  · split
    · exact s.quorumReached_keepsTable j b
    · exact .refl s
  · split
    · exact s.fire_keepsTable ..
    · exact .refl s

theorem State.takeReport_keepsTable (s : State) (j : Valve) (p : Nat) (cls : ReportClass)
    (b : Instant) : KeepsTable s (s.takeReport j p cls b) := by
  unfold State.takeReport
  simp only
  split
  · exact .refl s
  · rename_i installed
    have answered := State.applyAnswer_keepsTable installed cls (s.markOf j) b s.tracker.cycle
    split
    · exact answered.trans (State.fireProtective_keepsTable ..)
    · split
      · exact answered.trans (State.actOnIndication_keepsTable ..)
      · exact answered

theorem State.messageArrives_keepsTable (s : State) (j : Valve) (m : Option Inbound) :
    KeepsTable s (s.messageArrives j m) := by
  have heard := s.superviseMessage_keepsTable j
  have taken (cls : ReportClass) (r : PulseReport) :
      KeepsTable s ((s.superviseMessage j).takeReport j r.position cls r.stamp).settle :=
    (heard.trans (State.takeReport_keepsTable ..)).trans (State.settle_keepsTable _)
  unfold State.messageArrives State.takePulseReport
  split
  · exact .refl s
  · split
    · exact s.modChannel_keepsTable j _
    · exact heard
    · split
      · exact heard.trans (State.countNoise_keepsTable ..)
      · exact taken .ind _
      · exact taken .pfi _
      · exact taken .lft _

/-! ## Take-ups and firing instants -/

theorem State.takenUp_keepsTable (s : State) (j : Valve) (z : Instant) (rest : List Instant) :
    let w := s.takeZero j z rest
    KeepsTable s (if w.group.mode = .running then (w.pullIn j).scheduleFiring j
      else w.closeAtTakeUp j).settle := by
  intro w
  have taken : KeepsTable s w := by
    simp only [w, State.takeZero]
    exact s.modValve_keepsTable j rfl
  refine .trans ?_ (State.settle_keepsTable _)
  split
  · have pulled : KeepsTable w (w.pullIn j) := by
      unfold State.pullIn
      split
      · exact (w.issue_keepsTable ..).trans (State.post_keepsTable ..)
      · exact .refl w
    refine (taken.trans pulled).trans ?_
    unfold State.scheduleFiring
    exact State.modValve_keepsTable _ j rfl
  · refine taken.trans ?_
    unfold State.closeAtTakeUp
    split
    · exact w.closeInterval_keepsTable j
    · exact .refl w

theorem State.checkReadiness_keepsTable (s : State) (j : Valve) (f : Instant) :
    KeepsTable s (s.checkReadiness j f) := by
  unfold State.checkReadiness
  simp only
  split
  · exact s.setValve_keepsTable j rfl
  · exact s.issue_keepsTable ..

/-! ## Frames and replies -/

theorem State.judgeSilence_keepsTable (s : State) (l : Link) : KeepsTable s (s.judgeSilence l) := by
  unfold State.judgeSilence
  split
  · exact (s.modLink_keepsTable l _).trans (State.post_keepsTable ..)
  · exact .refl s

/-- A frame keeps the table when what serves it does. -/
theorem State.receive_keepsTable {serve : State → State} (hs : ∀ w, KeepsTable w (serve w))
    (s : State) (l : Link) (bytes : List Byte) (r : Role) :
    KeepsTable s (s.receive l bytes r serve) := by
  have selects (w : State) : KeepsTable w (w.judgeSelection l r) := by
    unfold State.judgeSelection
    split
    · exact .refl w
    · split <;> exact .of_same rfl rfl rfl
  unfold State.receive
  split
  · exact (s.modLink_keepsTable l _).trans (State.post_keepsTable ..)
  · exact s.modLink_keepsTable l _
  · exact ((s.modLink_keepsTable l _).trans (selects _)).trans (hs _)

theorem State.replyService_keepsTable (s : State) (l : Link) (a : BitVec 6) (code : BitVec 4)
    (result : ServiceResult) (data : List Byte) :
    KeepsTable s (s.replyService l a code result data) := by
  obtain ⟨f, e⟩ := s.replyService_frame l a code result data
  rw [e]
  exact (s.modLink_keepsTable l f).trans (.of_same rfl rfl rfl)

theorem State.serveOrder_keepsTable (s : State) (l : Link) (f : OrderFrame) :
    KeepsTable s (s.serveOrder l f) := by
  have replied (w : State) : KeepsTable w (w.replyStatus l f.address) := by
    obtain ⟨g, e⟩ := w.replyStatus_frame l f.address
    rw [e]
    exact w.modLink_keepsTable l g
  unfold State.serveOrder
  refine .trans ?_ (replied _)
  split
  · have ordered : KeepsTable s { s with
        order := { alpha := f.alpha, requested := requestedOf f.mode }
        lastTaken := some s.timebase, limitPassed := false } := .of_same rfl rfl rfl
    unfold State.takeOrder
    simp only
    refine .trans (.trans ?_ (State.judgeRequest_keepsTable ..)) (State.settle_keepsTable _)
    split
    · exact ordered.trans (State.clearTrips_keepsTable _)
    · exact ordered
  · exact .refl s

end Sys2Proof.Machine
end

section
/-! PROOF. Every command keeps the Level Table's invariants (R54 to R59, R68, R71, R81, R84 to R86, R98). -/

namespace Sys2Proof.Machine

open Sys2Proof

/-! ## Starts and resets -/

/-- A part with no level installed and the counter at 0, not in READY. -/
theorem KeepsTable.of_blank {s u : State} (hu : ∀ im, u.unit ≠ .ready im) (counter : u.counter = 0)
    (valves : ∀ j, u.valve j = {}) : KeepsTable s u where
  levels _ := ⟨counter ▸ Nat.zero_le _, fun im h => absurd h (hu im)⟩
  stamps _ := by
    have stamp (j : Valve) (p : Nat) : ((u.valve j).level p).stamp = 0 := by
      rw [valves, ValveRecord.level_beyond (fun h => by simp at h; omega)]
    exact ⟨fun j p => (stamp j p).le.trans (Nat.zero_le _), counter ▸ Nat.zero_le _,
      fun i _ p _ _ set => absurd (stamp i p) set⟩

/-- Every valve of a started part agrees with its levels, all UNPROVEN (R81, R82). -/
theorem ValveRecord.started_inv (im : Image) (j : Valve) (lastSend : Option Instant) :
    (ValveRecord.started im j lastSend).Inv (Par.nv j im) (Par.rv j im) (Par.mdark im) 0 := by
  rw [ValveRecord.inv_iff]
  refine ⟨List.length_replicate, fun l hl => ?_, fun st _ => ?_, rfl, ?_, ?_⟩
  · rw [List.eq_of_mem_replicate hl]
    exact ⟨nofun, Nat.zero_le _, nofun, by decide, nofun, by decide, le_rfl⟩
  · simp only [ValveRecord.started, List.countP_replicate]
    cases st <;> rfl
  · exact (List.countP_replicate.trans (if_neg nofun)).symm
  · exact (List.countP_replicate.trans (if_neg nofun)).symm

theorem ValveRecord.started_stamp (im : Image) (j : Valve) (lastSend : Option Instant) (p : Nat) :
    ((ValveRecord.started im j lastSend).level p).stamp = 0 := by
  by_cases installed : 1 ≤ p ∧ p ≤ (ValveRecord.started im j lastSend).levels.length
  · rw [ValveRecord.level_eq installed.1 (List.getElem?_eq_getElem (by omega))]
    simp [ValveRecord.started, Level.initial]
  · rw [ValveRecord.level_beyond installed]

/-- The blocks start under an image, whatever becomes of the group (R164, R165). -/
theorem State.startBlocks_keepsTable (s : State) (im : Image) (g : Group) :
    KeepsTable s { s.startBlocks im with group := g } := by
  have frame := s.startBlocks_frame im
  have valve (j : Valve) : ({ s.startBlocks im with group := g } : State).valve j
      = ValveRecord.started im j (s.valve j).channel.lastSend := by
    show (s.startBlocks im).valve j = _
    rw [frame]
    simp [State.valve]
  have counter : ({ s.startBlocks im with group := g } : State).counter = 0 := by rw [frame]
  have unit : ({ s.startBlocks im with group := g } : State).unit = .ready im := by rw [frame]
  refine ⟨fun _ => ⟨counter ▸ Nat.zero_le _, fun im' hu j => ?_⟩, fun _ => ?_⟩
  · obtain rfl := UnitState.ready.inj (unit.symm.trans hu)
    rw [valve, counter]
    exact ValveRecord.started_inv ..
  · have stamp (j : Valve) (p : Nat) :
        ((({ s.startBlocks im with group := g } : State).valve j).level p).stamp = 0 := by
      rw [valve, ValveRecord.started_stamp]
    exact ⟨fun j p => (stamp j p).le.trans (Nat.zero_le _), counter ▸ Nat.zero_le _,
      fun i _ p _ _ set => absurd (stamp i p) set⟩

theorem State.beginService_keepsTable (s : State) : KeepsTable s s.beginService :=
  .foldl State.sendIdle_keepsTable _ _

theorem State.applyStaging_keepsTable (s : State) : KeepsTable s s.applyStaging := by
  have started := s.startBlocks_keepsTable s.staging {}
  unfold State.applyStaging
  refine .trans ?_ (State.post_keepsTable ..)
  simp only
  split
  · exact started
  · exact started.trans (State.beginService_keepsTable _)

/-! ## Requests -/

theorem State.change_keepsTable (s : State) (l : Link) (h : ServiceHead) (code : BitVec 4)
    {run : State → State × ServiceResult × List Byte} (hr : KeepsTable s (run s).1) :
    KeepsTable s (s.change l h code run) := by
  unfold State.change
  split
  · exact hr.trans (State.replyService_keepsTable ..)
  · exact s.replyService_keepsTable ..

/-- An address at which a record is installed (R74). -/
theorem State.installedAt_some {s : State} {j p : Byte} {v : Valve} {q : Nat}
    (h : s.installedAt j p = some (v, q)) : ((s.valve v).level q).state ≠ .absent := by
  unfold State.installedAt at h
  split at h
  · split at h
    · cases h
    · rename_i installed
      cases h
      exact installed
  · cases h

theorem State.retireRequest_keepsTable (s : State) (k : Link) (j p : Byte) :
    KeepsTable s (s.retireRequest k j p).1 := by
  unfold State.retireRequest
  split
  · exact .refl s
  · split
    · exact .refl s
    · rename_i v q at'
      split
      · exact .refl s
      · simp only
        rw [State.retireLevel_eq]
        exact (State.retired_keepsTable (State.installedAt_some at') k).trans
          (State.settle_keepsTable _)

theorem State.restoreRequest_keepsTable (s : State) (j p : Byte) :
    KeepsTable s (s.restoreRequest j p).1 := by
  unfold State.restoreRequest
  split
  · exact .refl s
  · split
    · exact .refl s
    · rename_i v q at'
      split
      · exact (State.restored_keepsTable (State.installedAt_some at')).trans
          (State.settle_keepsTable _)
      · exact .refl s

theorem State.clearCountsRequest_keepsTable (s : State) (j p : Byte) :
    KeepsTable s (s.clearCountsRequest j p).1 := by
  unfold State.clearCountsRequest
  split
  · exact .refl s
  · split
    · exact .refl s
    · rename_i at'
      exact State.cleared_keepsTable (State.installedAt_some at')

theorem State.configWriteRequest_keepsTable (s : State) (a n : Byte) (data : Vector Word16 8) :
    KeepsTable s (s.configWriteRequest a n data).1 := by
  unfold State.configWriteRequest
  split
  · exact .refl s
  · split
    · exact .of_same rfl rfl rfl
    · exact .refl s

theorem State.configStoreRequest_keepsTable (s : State) : KeepsTable s s.configStoreRequest.1 := by
  unfold State.configStoreRequest
  split
  · exact .refl s
  · split
    · exact .refl s
    · split
      · exact .of_same rfl rfl rfl
      · exact .refl s

theorem State.configApplyRequest_keepsTable (s : State) :
    KeepsTable s s.configApplyRequest.1 := by
  rcases s.configApplyRequest_cases with e | ⟨-, -, e⟩
  · rw [e]; exact .refl s
  · rw [e]; exact s.applyStaging_keepsTable

theorem State.serveRequest_keepsTable (s : State) (l : Link) (h : ServiceHead) (r : Request) :
    KeepsTable s (s.serveRequest l h r) := by
  have answers (w : State) (code : BitVec 4) (d : ServiceResult × List Byte) :
      KeepsTable w (w.answer l h code d) := w.replyService_keepsTable ..
  have moved (c : Cursor) : KeepsTable s (s.setCursor l c) := s.modLink_keepsTable l _
  cases r with
  | lookUpLevel j p => exact answers ..
  | lookUpValve j => exact answers ..
  | seek j p =>
    unfold State.serveRequest State.serveSeek
    simp only
    split
    · exact answers ..
    · exact (moved _).trans (answers ..)
  | walk since =>
    unfold State.serveRequest State.serveWalk
    simp only
    split
    · exact (moved _).trans (answers ..)
    · exact answers ..
  | retire j p => exact s.change_keepsTable l h _ (s.retireRequest_keepsTable l j p)
  | restore j p => exact s.change_keepsTable l h _ (s.restoreRequest_keepsTable j p)
  | clearCounts j p => exact s.change_keepsTable l h _ (s.clearCountsRequest_keepsTable j p)
  | configRead a n => exact answers ..
  | configWrite a n data =>
    exact s.change_keepsTable l h _ (run := fun s =>
      ((s.configWriteRequest a n data).1, (s.configWriteRequest a n data).2, []))
      (s.configWriteRequest_keepsTable a n data)
  | configApply =>
    exact s.change_keepsTable l h _ (run := fun s =>
      (s.configApplyRequest.1, s.configApplyRequest.2, [])) s.configApplyRequest_keepsTable
  | configStore =>
    exact s.change_keepsTable l h _ (run := fun s =>
      (s.configStoreRequest.1, s.configStoreRequest.2, [])) s.configStoreRequest_keepsTable
  | reset =>
    unfold State.serveRequest State.serveReset
    simp only
    split
    · split
      · exact s.replyService_keepsTable ..
      · exact .of_blank nofun rfl State.reset_valve
    · exact s.replyService_keepsTable ..

theorem State.receiveBytes_keepsTable (s : State) (l : Link) (bytes : List Byte) :
    KeepsTable s (s.receiveBytes l bytes) := by
  unfold State.receiveBytes
  split
  · exact State.receive_keepsTable (fun w => w.serveOrder_keepsTable l _) ..
  · split
    · exact State.receive_keepsTable (fun w => w.serveRequest_keepsTable l _ _) ..
    · exact State.receive_keepsTable KeepsTable.refl ..

/-! ## The commands one by one -/

section
variable {s u : State} {t : Instant} {j : Valve}

theorem KeepsTable.of_atTick {f : State → State} (h : s.atTick t f = .next u)
    (hf : KeepsTable (s.atInstant t) (f (s.atInstant t))) : KeepsTable s u := by
  rcases State.atTick_next h with rfl | ⟨-, rfl⟩
  · exact .refl u
  · exact (s.atInstant_keepsTable t).trans hf

/-- A command of the reference input moves the input and the detector alone. -/
theorem KeepsTable.of_inputMoves {high : Bool} {act : Image → State → State}
    (ha : ∀ im w, ∃ d b, act im w = w.setDetector d b) (h : s.inputMoves t high act = .next u) :
    KeepsTable s u := by
  unfold State.inputMoves at h
  split at h
  · cases h
    exact .of_same rfl rfl rfl
  · refine .of_atTick h ?_
    obtain ⟨d, b, e⟩ := ha _ (s.atInstant t)
    rw [e]
    exact .of_same rfl rfl rfl
  · exact .of_atTick h (.of_same rfl rfl rfl)

theorem KeepsTable.resetEnd {e : ResetEnd} (h : execResetEnd s e = .next u) : KeepsTable s u := by
  unfold execResetEnd at h
  split at h
  · split at h
    · cases h
      exact .of_valves nofun rfl rfl
    · cases h
      exact .of_valves nofun rfl rfl
  · cases h
    exact .refl s

theorem KeepsTable.loadingReadDone {words : Image}
    (h : execLoadingReadDone t words s = .next u) : KeepsTable s u := by
  refine .of_atTick h ?_
  split
  · split
    · simp only
      split
      · have staged : KeepsTable (s.atInstant t) { s.atInstant t with staging := words } :=
          .of_same rfl rfl rfl
        exact (staged.trans (State.startBlocks_keepsTable _ words _)).trans
          (State.beginService_keepsTable _)
      · exact .of_valves nofun rfl rfl
    · exact .refl _
  · exact .refl _

theorem KeepsTable.loadingTimeout (h : execLoadingTimeout t s = .next u) : KeepsTable s u := by
  refine .of_atTick h ?_
  split
  · split
    · exact .of_valves nofun rfl rfl
    · exact .refl _
  · exact .refl _

theorem KeepsTable.crossingCandidate (h : execCrossingCandidate t s = .next u) : KeepsTable s u :=
  .of_inputMoves (fun im w => by
    split
    · exact ⟨_, _, rfl⟩
    · exact w.breakLowRun_sets im t) h

theorem KeepsTable.candidateDropped (h : execCandidateDropped t s = .next u) : KeepsTable s u :=
  .of_inputMoves (fun im w => by
    split
    · split
      · exact ⟨_, _, rfl⟩
      · exact ⟨_, _, w.setDetector_self⟩
    · exact w.startLowRun_sets t) h

theorem KeepsTable.crossingConfirmed (h : execCrossingConfirmed t s = .next u) :
    KeepsTable s u := by
  refine .of_atTick h ?_
  split
  · split
    · have disarmed : KeepsTable (s.atInstant t) ((s.atInstant t).setDetector (.disarmed none) true) :=
        .of_same rfl rfl rfl
      exact disarmed.trans (State.judgeCrossing_keepsTable ..)
    · exact .refl _
  · exact .refl _

theorem KeepsTable.detectorRearm (h : execDetectorRearm t s = .next u) : KeepsTable s u := by
  refine .of_atTick h ?_
  split
  · split
    · exact .of_same rfl rfl rfl
    · exact .refl _
  · exact .refl _

theorem KeepsTable.deadlineReached (h : execDeadlineReached t s = .next u) : KeepsTable s u := by
  refine .of_atTick h ?_
  split
  · split
    · exact (State.synthetic_keepsTable ..).trans (State.handReference_keepsTable ..)
    · exact .refl _
  · exact .refl _

theorem KeepsTable.takeUp (h : execTakeUp t j s = .next u) : KeepsTable s u := by
  refine .of_atTick h ?_
  split
  · exact .refl _
  · split
    · exact State.takenUp_keepsTable ..
    · exact .refl _

theorem KeepsTable.firingInstant (h : execFiringInstant t j s = .next u) : KeepsTable s u := by
  refine .of_atTick h ?_
  split
  · split
    · exact (State.checkReadiness_keepsTable ..).trans (State.settle_keepsTable _)
    · exact .refl _
  · exact .refl _

theorem KeepsTable.forcedFiring (h : execForcedFiring t j s = .next u) : KeepsTable s u := by
  refine .of_atTick h ?_
  split
  · split
    · exact ((State.issue_keepsTable ..).trans (State.post_keepsTable ..)).trans
        (State.settle_keepsTable _)
    · exact .refl _
  · exact .refl _

theorem KeepsTable.extinctionDeadline (h : execExtinctionDeadline t j s = .next u) :
    KeepsTable s u := by
  refine .of_atTick h ?_
  split
  · split
    · have conducts : KeepsTable (s.atInstant t) ((s.atInstant t).modValve j (·.withPhase .conducting)) :=
        State.modValve_keepsTable _ j rfl
      exact conducts.trans (State.failCommutation_keepsTable ..)
    · exact .refl _
  · exact .refl _

theorem KeepsTable.bypassGating (h : execBypassGating t s = .next u) : KeepsTable s u := by
  refine .of_atTick h ?_
  split
  · split
    · simp only
      refine .trans (.trans (State.fireLegs_keepsTable _) ?_) (State.settle_keepsTable _)
      exact .of_same rfl rfl rfl
    · exact .refl _
  · exact .refl _

theorem KeepsTable.channelDown (h : execChannelDown t j s = .next u) : KeepsTable s u := by
  refine .of_atTick h ?_
  split
  · split
    · have down :=
        (s.atInstant t).modChannel_keepsTable j (fun c => { c with up := false, run := 0 })
      exact ((down.trans (State.post_keepsTable ..)).trans (State.hand_keepsTable ..)).trans
        (State.settle_keepsTable _)
    · exact .refl _
  · exact .refl _

theorem KeepsTable.vc12Idle (h : execVc12Idle t j s = .next u) : KeepsTable s u := by
  refine .of_atTick h ?_
  split
  · split
    · exact State.sendIdle_keepsTable ..
    · exact .refl _
  · exact .refl _

theorem KeepsTable.controlLoss (h : execControlLoss t s = .next u) : KeepsTable s u := by
  refine .of_atTick h ?_
  split
  · have passed : KeepsTable (s.atInstant t) { s.atInstant t with limitPassed := true } :=
      .of_same rfl rfl rfl
    simp only
    split
    · exact passed
    · exact (passed.trans (State.hand_keepsTable ..)).trans (State.settle_keepsTable _)
  · exact .refl _

theorem KeepsTable.replySent {l : Link} (h : execReplySent t l s = .next u) : KeepsTable s u := by
  refine .of_atTick h ?_
  split
  · exact .refl _
  · exact ((s.atInstant t).modLink_keepsTable l _).trans (.of_same rfl rfl rfl)

theorem KeepsTable.storeComplete (h : execStoreComplete t s = .next u) : KeepsTable s u := by
  refine .of_atTick h ?_
  split
  · split
    · exact .of_same rfl rfl rfl
    · exact .refl _
  · exact .refl _

theorem KeepsTable.storeFailed {why : StoreFault} (h : execStoreFailed t why s = .next u) :
    KeepsTable s u := by
  refine .of_atTick h ?_
  split
  · split
    · exact .of_same rfl rfl rfl
    · exact .refl _
  · exact .refl _

theorem KeepsTable.of_request {l : Link} {q : ServiceHead} {r : Request} {bytes : List Byte}
    {role : Role}
    (h : s.atTick t (State.receive l bytes role (State.serveRequest l q r)) = .next u) :
    KeepsTable s u :=
  .of_atTick h (State.receive_keepsTable (fun w => w.serveRequest_keepsTable l q r) ..)

end

/-- Every command keeps the Level Table's invariants. -/
theorem exec_keepsTable {i : Instr} {s u : State} (h : exec i s = .next u) : KeepsTable s u := by
  cases i with
  | powerOnReset => cases h; exact .of_blank nofun rfl State.reset_valve
  | resetPin => cases h; exact .of_blank nofun rfl State.reset_valve
  | resetEnd e => exact .resetEnd h
  | loadingReadDone t words => exact .loadingReadDone h
  | loadingTimeout t => exact .loadingTimeout h
  | crossingCandidate t => exact .crossingCandidate h
  | candidateDropped t => exact .candidateDropped h
  | crossingConfirmed t => exact .crossingConfirmed h
  | detectorRearm t => exact .detectorRearm h
  | deadlineReached t => exact .deadlineReached h
  | takeUp t j => exact .takeUp h
  | firingInstant t j => exact .firingInstant h
  | forcedFiring t j => exact .forcedFiring h
  | extinctionDeadline t j => exact .extinctionDeadline h
  | pulseReport t j body => exact .of_atTick h (State.messageArrives_keepsTable ..)
  | oiuIdle t j body => exact .of_atTick h (State.messageArrives_keepsTable ..)
  | channelDown t j => exact .channelDown h
  | vc12Idle t j => exact .vc12Idle h
  | bypassGating t => exact .bypassGating h
  | linkSilence t l => exact .of_atTick h (State.judgeSilence_keepsTable ..)
  | controlLoss t => exact .controlLoss h
  | orderFrame t l f =>
    exact .of_atTick h (State.receive_keepsTable (fun w => w.serveOrder_keepsTable l f) ..)
  | replySent t l => exact .replySent h
  | lookUpLevel t l q j p => exact .of_request (r := .lookUpLevel j p) h
  | lookUpValve t l q j => exact .of_request (r := .lookUpValve j) h
  | seek t l q j p => exact .of_request (r := .seek j p) h
  | walk t l q since => exact .of_request (r := .walk since) h
  | retire t l q j p => exact .of_request (r := .retire j p) h
  | restore t l q j p => exact .of_request (r := .restore j p) h
  | clearCounts t l q j p => exact .of_request (r := .clearCounts j p) h
  | configRead t l q a n => exact .of_request (r := .configRead a n) h
  | configWrite t l q a n data => exact .of_request (r := .configWrite a n data) h
  | configApply t l q => exact .of_request (r := .configApply) h
  | configStore t l q => exact .of_request (r := .configStore) h
  | serviceReset t l q => exact .of_request (r := .reset) h
  | storeComplete t => exact .storeComplete h
  | storeFailed t why => exact .storeFailed h
  | lowRunStart t => exact .of_inputMoves (fun _ w => w.startLowRun_sets t) h
  | lowRunBroken t => exact .of_inputMoves (fun im w => w.breakLowRun_sets im t) h
  | messageOfUnknownKind t j msg => exact .of_atTick h (State.messageArrives_keepsTable ..)
  | discardedFrameArrives t l bytes => exact .of_atTick h (State.receiveBytes_keepsTable ..)

theorem step_keepsTable {s u : State} (h : step s = .next u) : KeepsTable s u := by
  unfold step at h
  split at h
  · cases h
    unfold State.tick
    split
    · exact .refl s
    · exact .of_same rfl rfl rfl
  · rename_i c rest _
    exact .trans (u := { s with pending := rest }) (.of_same rfl rfl rfl) (exec_keepsTable h)

/-- Settles O59, from the changes of the table that the commands are made of. -/
theorem stepsKeepTheLevelTable : Obligations.StepsKeepTheLevelTable :=
  ⟨fun _ _ inv h => (step_keepsTable h).levels inv, fun _ _ inv h => (step_keepsTable h).stamps inv⟩

end Sys2Proof.Machine
end

section
/-! PROOF. What a report does to its record and to the valve's counts, and where it does nothing else (R61
to R68, R96 to R98, R102). -/

namespace Sys2Proof.Machine

open Sys2Proof

/-! ## The answer and the counts -/

theorem Mark.beq_interval (mark : Mark) : (mark == .interval) = decide (mark = .interval) := by
  cases mark <;> rfl

/-- Only a PFI newly sets a PFI flag (R62 to R67). -/
theorem Level.take_pfiSet {l : Level} {cls : ReportClass} {mark : Mark} {b : Instant} {cycle : Word16}
    (h : (l.take cls mark b cycle).pfiSet = true) : cls = .pfi ∧ l.pfi = false := by
  revert h
  refine Level.take_induction (motive := fun cls a => a.pfiSet = true → cls = .pfi ∧ l.pfi = false)
    mark b cycle (fun _ => nofun) (fun _ set => ⟨rfl, ?_⟩) (fun _ set => ⟨rfl, ?_⟩) (fun _ => nofun)
    (fun _ => nofun) cls <;> simpa using set

theorem Monitor.afterReport_none {m : Monitor} {a : Answer} (ind : a.indSet = false)
    (pfi : a.pfiSet = false) (cleared : a.indCleared = false) : m.afterReport a = m := by
  simp [Monitor.afterReport, ind, pfi, cleared]

/-- The counts after an LFT that faults: the level indicates no more, if it did and counted (R65, R98). -/
theorem Monitor.afterReport_fault (m : Monitor) (l : Level) {a : Answer} (ind : a.indSet = false)
    (pfi : a.pfiSet = false) (cleared : a.indCleared = (l.indicated && l.state.counting)) :
    m.afterReport a = { m with indicated := m.indicated
      - if l.indicated = true ∧ l.state.counting = true then 1 else 0 } := by
  simp only [Monitor.afterReport, ind, pfi, cleared]
  cases l.indicated <;> cases l.state.counting <;> simp

theorem LevelState.installed_of_counting {st : LevelState} (h : st.counting = true) : st ≠ .absent := by
  rintro rfl
  cases h

/-- The counts after an IND or a PFI of a counting level are those of its flags (R98). -/
theorem Monitor.afterReport_counting {l : Level} {cls : ReportClass} (hc : cls ≠ .lft)
    (hl : l.state.counting = true) (m : Monitor) (mark : Mark) (b : Instant) (cycle : Word16) :
    m.afterReport (l.take cls mark b cycle) = m.afterIndication l cls
      (m.indicated + if mark = .interval ∧ l.indicated = false then 1 else 0) := by
  obtain ⟨-, -, ind, pfi, cleared⟩ := Level.take_counting hc hl mark b cycle
  simp only [Monitor.afterReport, Monitor.afterIndication, ind, pfi, cleared, Mark.beq_interval]
  congr 1
  · cases l.indicated <;> by_cases h : mark = .interval <;> simp [h]
  · cases l.pfi <;> by_cases h : cls = .pfi <;> simp [h]

/-! ## The report taken -/

/-- The record of position `p` and the valve's counts as the answer leaves them, nothing else moved. -/
def State.answered (s : State) (j : Valve) (p : Nat) (a : Answer) : State :=
  s.setValve j { s.valve j with
    levels := (s.valve j).levels.set (p - 1) a.level
    monitor := (s.valve j).monitor.afterReport a }

theorem State.answered_valve (s : State) (j : Valve) (p : Nat) (a : Answer) :
    (s.answered j p a).valve j = { s.valve j with
      levels := (s.valve j).levels.set (p - 1) a.level
      monitor := (s.valve j).monitor.afterReport a } := State.setValve_same ..

theorem State.protectiveDue_unset {s : State} {j : Valve} {a : Answer} (h : a.pfiSet = false) :
    s.protectiveDue j a = false := by
  simp [State.protectiveDue, h]

/-- Where R102 has no cause, a report fires nothing PROTECTIVE. -/
theorem State.protectiveDue_answered {s : State} {j : Valve} {l : Level} {cls : ReportClass}
    {mark : Mark} {b : Instant} {cycle : Word16} (p : Nat)
    (spared : (l.take cls mark b cycle).pfiSet = true →
      (s.valve j).noProtective (s.par (Par.ptv j)) l cls) :
    (s.answered j p (l.take cls mark b cycle)).protectiveDue j (l.take cls mark b cycle) = false := by
  cases set : (l.take cls mark b cycle).pfiSet with
  | false => exact State.protectiveDue_unset set
  | true =>
    obtain ⟨pfi, clear⟩ := Level.take_pfiSet set
    have par : (s.answered j p (l.take cls mark b cycle)).par (Par.ptv j) = s.par (Par.ptv j) := rfl
    simp only [State.protectiveDue, State.answered_valve, par, Monitor.afterReport, set]
    rcases spared set pfi with h | h | h
    · rw [clear] at h
      cases h
    · simp [Nat.not_le.2 h]
    · simp [h]

section
variable {s : State} {t : Instant} {j : Valve} {body : List Byte} {r : PulseReport} {im : Image}
  {cls : ReportClass} (ready : s.unit = .ready im)
  (report : readMessage (0x81#8 :: body) = some (.report r)) (class' : classify im j t r = cls.pulse)

/-- What supervision leaves to the report that it lets through. -/
theorem State.supervised_par (ready : s.unit = .ready im) (f : Image → Nat) :
    ((s.atInstant t).superviseMessage j).par f = f im :=
  State.par_ready (((s.atInstant t).superviseMessage_rest j).unit.trans ready) f

theorem State.supervised_counter :
    ((s.atInstant t).superviseMessage j).counter = s.counter := by
  rw [State.superviseMessage_eq]
  split <;> rfl

theorem State.supervised_cycle :
    ((s.atInstant t).superviseMessage j).tracker.cycle = s.tracker.cycle := by
  obtain ⟨-, -, tracker, -⟩ := (s.atInstant t).superviseMessage_frame j
  rw [tracker]
  rfl

theorem State.supervised_handed : ((s.atInstant t).superviseMessage j).handed = [] := by
  obtain ⟨handed, -⟩ := (s.atInstant t).superviseMessage_frame j
  exact handed

theorem State.supervised_group : ((s.atInstant t).superviseMessage j).group = s.group := by
  obtain ⟨-, group, -⟩ := (s.atInstant t).superviseMessage_frame j
  exact group

theorem State.supervised_other {i : Valve} (h : i ≠ j) :
    ((s.atInstant t).superviseMessage j).valve i = s.valve i := by
  rw [State.superviseMessage_eq]
  split
  · exact State.setValve_other _ _ h
  · exact State.setValve_other _ _ h

/-- A valid report of an installed record, as the table answers it (R97). -/
theorem exec_pulseReport_taken (ready : s.unit = .ready im)
    (report : readMessage (0x81#8 :: body) = some (.report r))
    (class' : classify im j t r = cls.pulse) :
    let s1 := (s.atInstant t).superviseMessage j
    let l := (s1.valve j).level r.position
    let a := l.take cls (s1.markOf j) r.stamp s.tracker.cycle
    let u := s1.applyAnswer j r.position a
    l.state ≠ .absent →
    exec (.pulseReport t j body) s = .next (if u.protectiveDue j a then u.fireProtective j
      else if a.standing = .counting then u.actOnIndication j (s1.markOf j) a r.stamp else u).settle := by
  intro s1 l a u installed
  have taken : s1.takeReport j r.position cls r.stamp = if u.protectiveDue j a then u.fireProtective j
      else if a.standing = .counting then u.actOnIndication j (s1.markOf j) a r.stamp else u := by
    unfold State.takeReport
    rw [State.supervised_cycle]
    exact if_neg installed
  rw [exec_pulseReport ready report class', taken]

include ready report class'

/-- A report that leaves its record's state and fires nothing PROTECTIVE: its record and the counts, then
what a counting indication does (R97). -/
theorem exec_pulseReport_answered :
    let s1 := (s.atInstant t).superviseMessage j
    let l := (s1.valve j).level r.position
    let a := l.take cls (s1.markOf j) r.stamp s.tracker.cycle
    let u := s1.answered j r.position a
    l.state ≠ .absent → a.level.state = l.state →
    (a.pfiSet = true → (s1.valve j).noProtective (Par.ptv j im) l cls) →
    exec (.pulseReport t j body) s = .next (if a.standing = .counting
      then (u.actOnIndication j (s1.markOf j) a r.stamp).settle else u) := by
  intro s1 l a u installed same spared
  rw [← State.supervised_par (t := t) (j := j) ready (Par.ptv j)] at spared
  have quiet : u.handed = [] := State.supervised_handed
  have answer : s1.applyAnswer j r.position a = u := State.applyAnswer_same same
  have unfired : u.protectiveDue j a = false := State.protectiveDue_answered _ spared
  rw [exec_pulseReport_taken ready report class' installed, answer, unfired]
  split
  · contradiction
  · rw [apply_ite State.settle, State.settle_nil quiet]

end

end Sys2Proof.Machine
end

section
/-! PROOF. What a report does to its record, and the reports that do nothing else: a stray, a report that is
protective only, a fault report; and an indication of a counting level (R56, R61 to R68, R96 to R98). -/

namespace Sys2Proof.Machine

open Sys2Proof

theorem LevelState.counting_iff (st : LevelState) :
    st.counting = true ↔ st = .unproven ∨ st = .sound ∨ st = .suspect := by
  cases st <;> decide

/-- A stray report moves the stray count and the last report, and neither of the valve's counts (R67). -/
theorem Level.strayed_spec (l : Level) (m : Monitor) (cls : ReportClass) (b : Instant) :
    (l.strayed cls b).standing = .stray
    ∧ (l.strayed cls b).level
        = { l with lastReport := some (cls, b), strayCount := min 255 (l.strayCount + 1) }
    ∧ m.afterReport (l.strayed cls b) = m :=
  ⟨rfl, rfl, Monitor.afterReport_none rfl rfl rfl⟩

/-- A report that is a stray one, protective only, or a fault of a FAULTED level does not count, leaves
its record's state, and sets a PFI flag at most where it is protective only. -/
theorem Level.take_alone {l : Level} {cls : ReportClass} {mark : Mark} {b : Instant} {cycle : Word16}
    {spared : Prop} (h : (l.take cls mark b cycle).standing = .stray
      ∨ ((l.take cls mark b cycle).standing = .protectiveOnly ∧ spared)
      ∨ ((l.take cls mark b cycle).standing = .fault ∧ l.state = .faulted)) :
    (l.take cls mark b cycle).standing ≠ .counting
    ∧ (l.take cls mark b cycle).level.state = l.state
    ∧ ((l.take cls mark b cycle).pfiSet = true → spared) := by
  revert h
  refine Level.take_induction (motive := fun _ a => (a.standing = .stray
    ∨ (a.standing = .protectiveOnly ∧ spared) ∨ (a.standing = .fault ∧ l.state = .faulted)) →
    a.standing ≠ .counting ∧ a.level.state = l.state ∧ (a.pfiSet = true → spared)) mark b cycle
    (fun _ => ?ind) (fun _ => ?pfi) (fun _ => ?protectiveOnly) (fun _ => ?fault)
    (fun _ _ => ⟨nofun, rfl, nofun⟩) cls
  case ind => simp
  case pfi => simp
  case protectiveOnly => exact fun h => ⟨nofun, rfl, fun _ => by simpa using h⟩
  case fault => exact fun h => ⟨nofun, (by simpa using h : l.state = .faulted).symm, nofun⟩

/-- Settles O24: the answer of the table case by case; and an answer that leaves its record's state is all
that a report does, unless its level counts. -/
theorem reportsActOnTheirRecord : Obligations.ReportsActOnTheirRecord := by
  refine ⟨LevelState.counting_iff, ?_, ?_⟩
  · intro l m mark b cycle ind pfi lft setsInd stray
    have strayed {cls : ReportClass} {a : Answer} (answer : a = l.strayed cls b) : stray cls a :=
      answer ▸ l.strayed_spec m cls b
    have indStray (h : l.state.counting = false) : stray .ind ind :=
      strayed (l.take_ind_stray mark b cycle h)
    have pfiStray (h : l.state.counting = false) (unfaulted : l.state ≠ .faulted) : stray .pfi pfi :=
      strayed (l.take_pfi_stray mark b cycle h unfaulted)
    refine ⟨fun counts => ?counting, fun faulted => ?faulted, fun dark => ?dark,
      fun retired => ?retired, fun failable => ?fault⟩
    case counting =>
      obtain ⟨indLevel, indCounts, -⟩ := Level.take_counting (cls := .ind) nofun counts mark b cycle
      obtain ⟨pfiLevel, pfiCounts, -⟩ := Level.take_counting (cls := .pfi) nofun counts mark b cycle
      have indMonitor := m.afterReport_counting (cls := .ind) nofun counts mark b cycle
      have pfiMonitor := m.afterReport_counting (cls := .pfi) nofun counts mark b cycle
      rw [Mark.beq_interval] at indLevel pfiLevel
      refine ⟨indCounts, ?_, fun sets => ?_, fun keeps => ?_, pfiCounts, ?_, ?_, ?_⟩
      · exact indLevel.trans (by simp [Level.afterIndication])
      · rw [indMonitor, if_pos sets]
        simp [Monitor.afterIndication]
      · rw [indMonitor, if_neg keeps]
        simp [Monitor.afterIndication]
      · exact pfiLevel.trans (by simp [Level.afterIndication])
      · rw [pfiMonitor]
        rfl
      · rw [pfiMonitor]
        simp [Monitor.afterIndication]
    case faulted =>
      have counts : l.state.counting = false := by rw [faulted]; rfl
      have answer : pfi = _ := l.take_pfi_faulted mark b cycle faulted
      refine ⟨indStray counts, ?_⟩
      rw [answer]
      refine ⟨rfl, rfl, ?_⟩
      cases h : l.pfi <;> simp [Monitor.afterReport]
    case dark =>
      have counts : l.state.counting = false := by rw [dark]; rfl
      exact ⟨indStray counts, pfiStray counts (by simp [dark])⟩
    case retired =>
      have counts : l.state.counting = false := by rw [retired]; rfl
      exact ⟨indStray counts, pfiStray counts (by simp [retired]),
        strayed (l.take_lft_retired mark b cycle retired)⟩
    case fault =>
      have unretired : l.state ≠ .retired := by
        rintro retired
        rcases failable with h | h | h <;> rw [retired] at h <;> cases h
      have answer : lft = _ := l.take_lft_fault mark b cycle unretired
      rw [answer]
      exact ⟨rfl, rfl, m.afterReport_fault l rfl rfl rfl⟩
  · intro s t j body r im cls mark ready report class' s1 v l a marks installed alone
    have marked : s1.markOf j = mark := by
      rcases h : s1.markOf j with _ | _
      · cases mark with
        | interval => rfl
        | conduction => exact absurd (marks.1 rfl) ((s1.markOf_interval j).1 h)
      · exact (marks.2 ((s1.markOf_conduction j).1 h)).symm
    subst marked
    obtain ⟨uncounted, same, spared⟩ := Level.take_alone alone
    have run := exec_pulseReport_answered ready report class' installed same spared
    rw [run, if_neg uncounted]
    rfl

/-- A report newly marks a level FAULTED: its record replaced, the change handed on (R65, R97). -/
theorem exec_pulseReport_faulted {s : State} {t : Instant} {j : Valve} {body : List Byte}
    {r : PulseReport} {im : Image} (ready : s.unit = .ready im)
    (report : readMessage (0x81#8 :: body) = some (.report r)) (class' : classify im j t r = .lft) :
    let s1 := (s.atInstant t).superviseMessage j
    let v := s1.valve j
    let l := v.level r.position
    l.state ≠ .absent → l.state ≠ .retired → l.state ≠ .faulted →
    exec (.pulseReport t j body) s
      = .next (((s1.replaceLevel j r.position
          { l with lastReport := some (.lft, r.stamp), state := .faulted
                   faultCount := min 255 (l.faultCount + 1)
                   firstFault := some (l.firstFault.getD s.tracker.cycle)
                   indicated := l.indicated && !l.state.counting }
          { v.monitor with indicated := v.monitor.indicated
              - (if l.indicated = true ∧ l.state.counting = true then 1 else 0) }).levelChange j
        (l.state, .faulted)).settle) := by
  intro s1 v l installed unretired sound
  have answer := l.take_lft_fault (s1.markOf j) r.stamp s.tracker.cycle unretired
  have run := exec_pulseReport_taken (cls := .lft) ready report class' installed
  rw [answer, State.applyAnswer_changed (Ne.symm sound), State.protectiveDue_unset rfl,
    if_neg Bool.false_ne_true, if_neg nofun, Monitor.afterReport_fault _ l rfl rfl rfl] at run
  exact run

/-- Settles O25: a level that counts or is DARK is neither RETIRED nor FAULTED, so its state changes. -/
theorem faultReportFaultsTheLevel : Obligations.FaultReportFaultsTheLevel := by
  intro s t j body r im ready report class' s1 v l failable l'
  have states : l.state ≠ .absent ∧ l.state ≠ .retired ∧ l.state ≠ .faulted := by
    rw [l.state.counting_iff] at failable
    rcases failable with (h | h | h) | h <;> rw [h] <;> decide
  obtain ⟨installed, unretired, sound⟩ := states
  rw [exec_pulseReport_faulted ready report class' installed unretired sound, State.replaceLevel,
    State.supervised_counter]
  rfl

end Sys2Proof.Machine
end

section
/-! PROOF. An indication of a counting level: counted, completing a quorum, or refiring its valve (R61 to
R63, R88, R91, R93, R96 to R99, R101). -/

namespace Sys2Proof.Machine

open Sys2Proof

/-! ## The indication counted -/

/-- An indication counted at its record, whose flag becomes `flag`, and in the valve's counts, of which the
indicated one becomes `n` (R62, R63, R98). -/
def State.indicated (s : State) (j : Valve) (p : Nat) (cls : ReportClass) (b : Instant) (flag : Bool)
    (n : Nat) : State :=
  let v := s.valve j
  s.setValve j { v with
    levels := v.levels.set (p - 1) ((v.level p).afterIndication cls b flag)
    monitor := v.monitor.afterIndication (v.level p) cls n }

theorem State.indicated_valve (s : State) (j : Valve) (p : Nat) (cls : ReportClass) (b : Instant)
    (flag : Bool) (n : Nat) : (s.indicated j p cls b flag n).valve j = { s.valve j with
      levels := (s.valve j).levels.set (p - 1) (((s.valve j).level p).afterIndication cls b flag)
      monitor := (s.valve j).monitor.afterIndication ((s.valve j).level p) cls n } :=
  State.setValve_same ..

theorem State.answered_counting {s : State} {j : Valve} {p : Nat} {cls : ReportClass}
    (indication : cls ≠ .lft) (counts : ((s.valve j).level p).state.counting = true) (mark : Mark)
    (b : Instant) (cycle : Word16) :
    let l := (s.valve j).level p
    s.answered j p (l.take cls mark b cycle)
      = s.indicated j p cls b (l.indicated || decide (mark = .interval))
          ((s.valve j).monitor.indicated
            + if mark = .interval ∧ l.indicated = false then 1 else 0) := by
  intro l
  obtain ⟨level, -⟩ := Level.take_counting indication counts mark b cycle
  rw [Mark.beq_interval] at level
  rw [State.answered, level, Monitor.afterReport_counting indication counts]
  rfl

section
variable {s : State} {j : Valve} {a : Answer} {b : Instant}

/-- An indication that completes no quorum is only counted (R97). -/
theorem State.actOnIndication_idle (h : a.indSet = true → (s.valve j).monitor.indicated ≠ s.qv j) :
    s.actOnIndication j .interval a b = s := if_neg fun both => h both.1 both.2

theorem State.actOnIndication_quorum (set : a.indSet = true)
    (full : (s.valve j).monitor.indicated = s.qv j) :
    s.actOnIndication j .interval a b = s.quorumReached j b := if_pos ⟨set, full⟩

/-- A dropped level refires its valve unless the last fire message is too near (R101). -/
theorem State.refireDue_iff :
    s.refireDue j = true ↔ ∀ f, (s.valve j).monitor.lastFire = some f →
      s.par Par.refsp ≤ span f s.timebase := by
  unfold State.refireDue
  cases (s.valve j).monitor.lastFire <;> simp

theorem State.actOnIndication_spaced (h : s.refireDue j = false) :
    s.actOnIndication j .conduction a b = s := by
  simp [State.actOnIndication, h]

theorem State.actOnIndication_refires (h : s.refireDue j = true) :
    s.actOnIndication j .conduction a b = s.fire .refire j := if_pos h

end

theorem State.indicated_count (s : State) (j : Valve) (p : Nat) (cls : ReportClass) (b : Instant)
    (flag : Bool) (n : Nat) : ((s.indicated j p cls b flag n).valve j).monitor.indicated = n := by
  rw [State.indicated_valve]
  rfl

theorem State.indicated_settle {s : State} (quiet : s.handed = []) (j : Valve) (p : Nat)
    (cls : ReportClass) (b : Instant) (flag : Bool) (n : Nat) :
    (s.indicated j p cls b flag n).settle = s.indicated j p cls b flag n := State.settle_nil quiet

section
variable {s w : State} {t : Instant} {j : Valve} {body : List Byte} {r : PulseReport} {im : Image}
  {cls : ReportClass} {l : Level} (ready : s.unit = .ready im)
  (report : readMessage (0x81#8 :: body) = some (.report r)) (class' : classify im j t r = cls.pulse)
  (indication : cls ≠ .lft) (supervised : w = (s.atInstant t).superviseMessage j)
  (record : l = (w.valve j).level r.position) (counts : l.state.counting = true)
  (spared : (w.valve j).noProtective (Par.ptv j im) l cls)
/-- A refire is due REFSP or more after the last fire message, or where there is none (R101). -/
theorem State.refireDue_indicated (ready : s.unit = .ready im)
    (supervised : w = (s.atInstant t).superviseMessage j) (p : Nat) (b : Instant) (flag : Bool)
    (n : Nat) : (w.indicated j p cls b flag n).refireDue j = true ↔
      ∀ f, (w.valve j).monitor.lastFire = some f → Par.refsp im ≤ span f t := by
  have par : w.par Par.refsp = Par.refsp im := supervised ▸ State.supervised_par ready _
  have time : w.timebase = t := supervised ▸ (State.superviseMessage_rest ..).timebase
  rw [State.refireDue_iff, State.indicated_valve, ← par, ← time]
  rfl

include ready report class' indication supervised record counts spared

/-- An indication of a counting level that fires nothing PROTECTIVE is counted, then acted on by its mark
(R97). -/
theorem exec_indication {mark : Mark} {flag : Bool} {n : Nat} (marked : w.markOf j = mark)
    (hflag : (l.indicated || decide (mark = .interval)) = flag)
    (hn : (w.valve j).monitor.indicated
      + (if mark = .interval ∧ l.indicated = false then 1 else 0) = n) :
    exec (.pulseReport t j body) s = .next ((w.indicated j r.position cls r.stamp flag n).actOnIndication
      j mark (l.take cls mark r.stamp s.tracker.cycle) r.stamp).settle := by
  subst marked hflag hn record
  obtain ⟨level, standing, -⟩ := Level.take_counting indication counts (w.markOf j) r.stamp s.tracker.cycle
  have installed := LevelState.installed_of_counting counts
  have same : (((w.valve j).level r.position).take cls (w.markOf j) r.stamp s.tracker.cycle).level.state
      = ((w.valve j).level r.position).state := by
    rw [level]
    rfl
  rw [← State.answered_counting indication counts (w.markOf j) r.stamp s.tracker.cycle]
  subst supervised
  rw [exec_pulseReport_answered ready report class' installed same fun _ => spared, if_pos standing]

/-- An indication marked INTERVAL of a level that has indicated is only counted. -/
theorem exec_indication_again (unmarked : ¬ w.marksConduction j) (seen : l.indicated = true) :
    exec (.pulseReport t j body) s
      = .next (w.indicated j r.position cls r.stamp true (w.valve j).monitor.indicated) := by
  obtain ⟨-, -, indSet, -⟩ := Level.take_counting indication counts .interval r.stamp s.tracker.cycle
  have quiet : w.handed = [] := supervised ▸ State.supervised_handed
  have unset : (l.take cls .interval r.stamp s.tracker.cycle).indSet = false := by simp [indSet, seen]
  have run := exec_indication ready report class' indication supervised record counts spared
    ((w.markOf_interval j).2 unmarked) (flag := true) (n := (w.valve j).monitor.indicated)
    (by simp) (by simp [seen])
  rw [run, State.actOnIndication_idle (by simp [unset]), State.indicated_settle quiet]

/-- An indication marked INTERVAL of a level that had not indicated: one that brings the count to Qv
completes the quorum (R63, R97). -/
theorem exec_indication_first (unmarked : ¬ w.marksConduction j) (fresh : l.indicated = false) {n : Nat}
    (count : (w.valve j).monitor.indicated + 1 = n) :
    let u := w.indicated j r.position cls r.stamp true n
    exec (.pulseReport t j body) s = .next (if n = Par.nv j im - Par.rv j im
      then (u.quorumReached j r.stamp).settle else u) := by
  intro u
  obtain ⟨-, -, indSet, -⟩ := Level.take_counting indication counts .interval r.stamp s.tracker.cycle
  have set : (l.take cls .interval r.stamp s.tracker.cycle).indSet = true := by simp [indSet, fresh]
  have quiet : w.handed = [] := supervised ▸ State.supervised_handed
  have quorum : u.qv j = Par.nv j im - Par.rv j im :=
    (supervised ▸ State.supervised_par ready _ : w.par (Par.qv j) = _)
  have counted : (u.valve j).monitor.indicated = n := State.indicated_count ..
  have run := exec_indication ready report class' indication supervised record counts spared
    ((w.markOf_interval j).2 unmarked) (flag := true) (n := n) (by simp) (by simpa [fresh] using count)
  rw [run]
  by_cases full : n = Par.nv j im - Par.rv j im
  · rw [if_pos full, State.actOnIndication_quorum set ((counted.trans full).trans quorum.symm)]
  · have short : (u.valve j).monitor.indicated ≠ u.qv j := by rwa [counted, quorum]
    rw [if_neg full, State.actOnIndication_idle fun _ => short, State.indicated_settle quiet]

/-- An indication marked CONDUCTION is counted, and refires its valve where R101 says so. -/
theorem exec_indication_conducting (marked : w.marksConduction j) :
    let u := w.indicated j r.position cls r.stamp l.indicated (w.valve j).monitor.indicated
    exec (.pulseReport t j body) s
      = .next (if u.refireDue j then (u.fire .refire j).settle else u) := by
  intro u
  have quiet : w.handed = [] := supervised ▸ State.supervised_handed
  have run := exec_indication ready report class' indication supervised record counts spared
    ((w.markOf_conduction j).2 marked) (flag := l.indicated) (n := (w.valve j).monitor.indicated)
    (by simp) (by simp)
  rw [run]
  cases due : u.refireDue j with
  | true => rw [State.actOnIndication_refires due, if_pos rfl]
  | false => rw [State.actOnIndication_spaced due, if_neg Bool.false_ne_true, State.indicated_settle quiet]

end

/-- Settles O26: the count stays below or above Qv, or the last fire message is too near. -/
theorem indicationIsCounted : Obligations.IndicationIsCounted := by
  intro s t j body r im cls ready report indication class' s1 v l result counts spared
  refine ⟨fun unmarked seen => ?_, fun unmarked fresh short => ?_, fun marked ⟨f, fired, near⟩ => ?_⟩
  · exact exec_indication_again ready report class' indication rfl rfl counts spared unmarked seen
  · rw [exec_indication_first ready report class' indication rfl rfl counts spared unmarked fresh rfl,
      if_neg short]
    rfl
  · have run :=
      exec_indication_conducting ready report class' indication rfl rfl counts spared marked
    rw [run, if_neg]
    · rfl
    · rw [State.refireDue_indicated ready rfl]
      exact fun due => absurd (due f fired) (Nat.not_le.2 near)

end Sys2Proof.Machine
end

section
/-! PROOF. A completed quorum in each regime, and the refire of a dropped level (R88, R90, R91, R93, R97,
R99, R101). -/

namespace Sys2Proof.Machine

open Sys2Proof

/-! ## A completed quorum -/

section
variable {s : State} {j : Valve} {b : Instant}

/-- In the free regime the valve returns to BLOCKING, or stays so (R93). -/
theorem State.quorumReached_free (free : ¬ s.outsideFreeRegime j) :
    s.quorumReached j b = s.setValve j ((s.valve j).withPhase .blocking) := by
  have regime : s.regime j = .free := not_not.1 (mt (s.outsideFreeRegime_iff j).2 free)
  simp only [State.quorumReached, regime, if_true]
  split
  · rename_i blocking
    rw [ValveRecord.withPhase, ← blocking, State.setValve_self]
  · rfl

theorem State.quorumReached_commutating (regulated : s.outsideFreeRegime j)
    (phase : (s.valve j).monitor.phase = .commutating) :
    s.quorumReached j b = s.blockBack j b := by
  have regime := (s.outsideFreeRegime_iff j).1 regulated
  simp only [State.quorumReached, regime, phase, if_true, if_false]

/-- A BLOCKING valve is fired LATE where a quorum wait is open (R99). -/
theorem State.quorumReached_blocking (regulated : s.outsideFreeRegime j)
    (phase : (s.valve j).monitor.phase = .blocking) :
    s.quorumReached j b = if (s.valve j).schedule.expiry.isSome
      then (s.issue .late j).post (.valve j) valveLate else s := by
  have regime := (s.outsideFreeRegime_iff j).1 regulated
  simp only [State.quorumReached, regime, phase, if_false, reduceCtorEq]

/-- Blocking back measures γ where Dj is present (R91). -/
theorem State.blockBack_measured {d : Instant} (hd : (s.valve j).schedule.deadline = some d) :
    s.blockBack j b = (s.setValve j { (s.valve j).withPhase .blocking with
      monitor := { ((s.valve j).withPhase .blocking).monitor with blockBack := some b } }).measure
      j b d := by
  have deadline : ((s.valve j).withPhase .blocking).schedule.deadline = some d := hd
  simp only [State.blockBack, deadline]

theorem State.blockBack_unmeasured (hd : (s.valve j).schedule.deadline = none) :
    s.blockBack j b = s.setValve j ((s.valve j).withPhase .blocking) := by
  have deadline : ((s.valve j).withPhase .blocking).schedule.deadline = none := hd
  simp only [State.blockBack, deadline]

end

/-! ## A firing after an indication -/

/-- The fire mask does not see a record replaced by one of the same state. -/
theorem maskFrom_set {l : Level} (l' : Level) (h : l'.state = l.state) {ls : List Level} {i : Nat}
    (at' : ls[i]? = some l) (n : Nat) : maskFrom n (ls.set i l') = maskFrom n ls := by
  induction ls generalizing i n with
  | nil => rfl
  | cons x xs ih =>
    cases n with
    | zero => cases i <;> rfl
    | succ n =>
      cases i with
      | zero =>
        cases at'
        simp only [List.set_cons_zero, maskFrom, h]
      | succ i => simp only [List.set_cons_succ, maskFrom, ih at' n]

section
variable {s u : State} {j : Valve} {p : Nat} {cls : ReportClass} {b : Instant} {flag : Bool} {n : Nat}

theorem State.indicated_rest (s : State) (j : Valve) (p : Nat) (cls : ReportClass) (b : Instant)
    (flag : Bool) (n : Nat) : RestKept s (s.indicated j p cls b flag n) := State.setValve_rest ..

/-- An indication counted before its valve's firing is no part of the firing. -/
theorem Fired.of_indicated {t : Instant} {k : FireKind}
    (installed : ((s.valve j).level p).state ≠ .absent)
    (h : Fired (s.indicated j p cls b flag n) u t k j) : Fired s u t k j := by
  obtain ⟨-, -, place⟩ := ValveRecord.installed installed
  have state : (((s.valve j).level p).afterIndication cls b flag).state
      = ((s.valve j).level p).state := rfl
  have mask : fireMask ((s.valve j).levels.set (p - 1)
      (((s.valve j).level p).afterIndication cls b flag)) = fireMask (s.valve j).levels :=
    maskFrom_set _ state place _
  have count (l : Level) (m : Nat) (ls : List Level) :
      ({ s.valve j with levels := ls, monitor := (s.valve j).monitor.afterIndication l cls m }
        : ValveRecord).firingCount k = (s.valve j).firingCount k := by
    cases k <;> rfl
  rw [Fired, State.fireSent, State.indicated_valve, mask, count] at h
  exact h

end

/-- Settles O27: what a completed quorum does by the regime and the phase. -/
theorem completedQuorumActs : Obligations.CompletedQuorumActs := by
  intro s t j body r im cls ready report indication class' s1 v l n counts spared fresh full counted
    blocked
  have group : s1.group = s.group := State.supervised_group
  have regimes : s1.outsideFreeRegime j ↔ s.outsideFreeRegime j := by
    rw [State.outsideFreeRegime, State.outsideFreeRegime, group]
  obtain ⟨u, hu⟩ : ∃ u, u = s1.indicated j r.position cls r.stamp true n := ⟨_, rfl⟩
  have record : u.valve j = counted := hu ▸ State.indicated_valve ..
  have regime : u.outsideFreeRegime j ↔ s.outsideFreeRegime j := hu ▸ regimes
  have schedule : (u.valve j).schedule = v.schedule := by rw [record]
  have phases : (u.valve j).monitor.phase = v.monitor.phase := by
    rw [record]
    rfl
  have quiet : s1.handed = [] := State.supervised_handed
  have moved (x : ValveRecord) : u.setValve j x = s1.setValve j x :=
    hu ▸ State.setValve_setValve ..
  have run (unmarked : ¬ s1.marksConduction j) :
      exec (.pulseReport t j body) s = .next (u.quorumReached j r.stamp).settle := by
    rw [exec_indication_first ready report class' indication rfl rfl counts spared unmarked fresh full,
      hu]
    exact congrArg _ (if_pos rfl)
  have acts {w : State} (unmarked : ¬ s1.marksConduction j) (acted : u.quorumReached j r.stamp = w)
      (settled : w.handed = []) : exec (.pulseReport t j body) s = .next w := by
    rw [run unmarked, acted, State.settle_nil settled]
  have unmarked (h : v.monitor.phase ≠ .conducting) : ¬ s1.marksConduction j := fun marks => h marks.1
  refine ⟨fun regulated phase => ⟨fun d hd => ?_, fun hd => ?_⟩, fun free => ?_,
    fun regulated phase => ⟨fun closed => ?_, fun opened => ?_⟩⟩
  · refine acts (unmarked (by simp [phase])) ?_ quiet
    rw [State.quorumReached_commutating (regime.2 regulated) (phases.trans phase),
      State.blockBack_measured ((congrArg _ schedule).trans hd), moved, record]
    rfl
  · refine acts (unmarked (by simp [phase])) ?_ quiet
    rw [State.quorumReached_commutating (regime.2 regulated) (phases.trans phase),
      State.blockBack_unmeasured ((congrArg _ schedule).trans hd), moved, record]
    rfl
  · refine acts (fun marks => free (regimes.1 marks.2)) ?_ quiet
    rw [State.quorumReached_free (mt regime.1 free), moved, record]
    rfl
  · refine acts (unmarked (by simp [phase])) ?_ quiet
    rw [State.quorumReached_blocking (regime.2 regulated) (phases.trans phase), schedule, closed, hu]
    rfl
  · have issued := State.post_settled (u.issue .late j) (.valve j) valveLate
    have settled := State.settle_settled ((u.issue .late j).post (.valve j) valveLate)
    obtain ⟨fired, unissued, -⟩ := State.issue_settled (by decide) (issued.trans settled)
    have late := run (unmarked (by simp [phase]))
    rw [State.quorumReached_blocking (regime.2 regulated) (phases.trans phase), schedule,
      if_pos opened] at late
    have time : u.timebase = t := hu ▸ (State.superviseMessage_rest ..).timebase
    have installed : l.state ≠ .absent := LevelState.installed_of_counting counts
    have recorded : u = s1.setValve j counted := hu
    rw [time, hu] at fired
    refine ⟨_, late, by rw [recorded], ?_, unissued,
      fun k => settled.words.pending k _ _ (State.post_posted ..)⟩
    rw [hu]
    exact Fired.of_indicated installed fired

/-! ## A refire -/

/-- A fire message to a CONDUCTING valve hands on nothing, whatever becomes of its predecessor (R88, R114). -/
theorem State.fire_conducting_handed {s : State} {j : Valve}
    (h : (s.valve j).monitor.phase = .conducting) (k : FireKind) :
    (s.fire k j).handed = s.handed := by
  rw [(s.fire_commutated k j).eq]
  exact (State.fireOwn_conducting h k).handed

/-- What a refire leaves: the interval and the schedule of its valve, mode and trips, every valve but this
and its predecessor (R88, R101). -/
theorem State.refire_keeps {s u : State} {j : Valve} (h : (s.valve j).monitor.phase = .conducting)
    (hu : u = s.fire .refire j) : (u.valve j).levels = (s.valve j).levels
    ∧ (u.valve j).monitor.indicated = (s.valve j).monitor.indicated
    ∧ (u.valve j).monitor.distinctPfi = (s.valve j).monitor.distinctPfi
    ∧ (u.valve j).schedule = (s.valve j).schedule
    ∧ u.group.mode = s.group.mode ∧ u.group.trips = s.group.trips
    ∧ ∀ i, i ≠ j → i ≠ predecessor j → u.valve i = s.valve i := by
  obtain ⟨-, -, -, -, group, others, -, -, -, schedule, -⟩ := s.fireOwn_frame .refire j
  obtain ⟨-, conducting, -⟩ := s.fireOwn_valve .refire j
  obtain ⟨levels, -, indicated, distinct, -⟩ := conducting h
  have after : Commutated (s.fireOwn .refire j) u (predecessor j) := hu ▸ s.fire_commutated .refire j
  have own : u.valve j = (s.fireOwn .refire j).valve j := hu ▸ (s.fire_own .refire j).1
  have same : u.group = (s.noteUpper j).group := by
    rw [after.eq]
    exact group
  rw [own, same, State.noteUpper_mode, State.noteUpper_trips]
  exact ⟨levels, indicated, distinct, schedule, rfl, rfl,
    fun i hj hp => (after.others i hp).trans (others i hj)⟩

/-- Settles O28: a CONDUCTING valve fires nothing PROTECTIVE, and its refire hands on nothing. -/
theorem droppedLevelRefiresTheValve : Obligations.DroppedLevelRefiresTheValve := by
  intro s t j body r im cls ready report indication class' s1 v l counts marked spaced counted
  obtain ⟨u, hu⟩ : ∃ u, u = counted.fire .refire j := ⟨_, rfl⟩
  have spared : v.noProtective (Par.ptv j im) l cls := fun _ => .inr (.inr marked.1)
  have indicated : s1.indicated j r.position cls r.stamp l.indicated v.monitor.indicated = counted := rfl
  have record : counted.valve j = { v with
      levels := v.levels.set (r.position - 1) (l.afterIndication cls r.stamp l.indicated)
      monitor := v.monitor.afterIndication l cls v.monitor.indicated } := State.setValve_same ..
  have conducting : (counted.valve j).monitor.phase = .conducting := by
    rw [record]
    exact marked.1
  have quiet : (counted.fire .refire j).handed = [] :=
    (State.fire_conducting_handed conducting .refire).trans State.supervised_handed
  have run : exec (.pulseReport t j body) s = .next (counted.fire .refire j) := by
    rw [exec_indication_conducting ready report class' indication rfl rfl counts spared marked, if_pos,
      indicated, State.settle_nil quiet]
    exact (State.refireDue_indicated ready rfl ..).2 spaced
  have installed : l.state ≠ .absent := LevelState.installed_of_counting counts
  have time : counted.timebase = t := (State.superviseMessage_rest ..).timebase
  have group : counted.group = s.group := State.supervised_group
  have fired : Fired counted u t .refire j := by
    rw [hu, ← time]
    exact counted.fire_fired .refire j
  obtain ⟨levels, count, distinct, schedule, mode, trips, others⟩ := State.refire_keeps conducting hu
  rw [record] at levels count distinct schedule
  refine ⟨u, hu ▸ run, hu, Fired.of_indicated installed fired, levels, count, distinct, schedule,
    ⟨mode.trans (by rw [group]), trips.trans (by rw [group])⟩, fun i hj hp => ?_, ?_⟩
  · rw [others i hj hp]
    exact (State.setValve_other _ _ hj).trans (State.supervised_other hj)
  · rw [hu]
    exact (s1.indicated_rest ..).trans (State.fire_rest ..)

end Sys2Proof.Machine
end

section
/-! PROOF. A request whose frame passes its checks: the access rule of changing requests, the address of a
record, and the three maintenance requests (R74 to R79, R142, R156, R160). -/

namespace Sys2Proof.Machine

open Sys2Proof

/-! ## The frame of a request (R142) -/

theorem Request.length_of_code (r : Request) : serviceLength r.code = some (r.args.length + 4) := by
  cases r with
  | configWrite a n data => simp [Request.code, Request.args, serviceLength]
  | _ => rfl

/-- A request whose CRC and address are right passes every check (R142). -/
theorem checkFrame_serviceBytes {s : State} {h : ServiceHead} {r : Request} (intact : serviceIntact h r)
    (addressed : s.addressed h.address) : checkFrame s.gaddr (serviceBytes h r) = .valid := by
  obtain ⟨b0, hb0⟩ : ∃ b : Byte, b = h.address ++ serviceKind := ⟨_, rfl⟩
  obtain ⟨b1, hb1⟩ : ∃ b : Byte, b = roleBit h.role ++ h.spare ++ r.code := ⟨_, rfl⟩
  have bytes : serviceBytes h r = b0 :: b1 :: r.args ++ bytes2 h.crc := by
    rw [hb0, hb1]
    rfl
  have crc : crc16 (b0 :: b1 :: r.args) = h.crc := by
    rw [serviceIntact, bytes] at intact
    rw [intact]
    congr 1
    exact (List.take_left' (by simp; omega)).symm
  have address : addressPasses s.gaddr b0 = true := by
    rw [hb0]
    exact (s.addressPasses_iff h.address serviceKind).2 addressed
  have code : b1.extractLsb' 0 4 = r.code := by
    rw [hb1]
    exact BitVec.extractLsb'_append_eq_right
  have shape : shapePasses b0 b1 (serviceBytes h r).length = true := by
    have kind : b0.extractLsb' 0 2 = serviceKind := by
      rw [hb0]
      exact append_kind ..
    have length : (serviceBytes h r).length = r.args.length + 4 := by simp [serviceBytes]
    rw [shapePasses, kind, if_neg (by decide), if_pos rfl, code, r.length_of_code, length]
    simp
  rw [bytes] at shape
  rw [checkFrame, bytes, splitCrc_bytes2]
  simp only [List.headD_cons, crc, address, shape, if_true]

/-- A request that passes every check is served at its tick, after its link and the switch rule. -/
theorem exec_command {s : State} {h : ServiceHead} {r : Request} (live : s.live)
    (addressed : s.addressed h.address) (intact : serviceIntact h r) (t : Instant) (l : Link) :
    exec (r.command t l h) s = .next ((s.heard t l h.role).serveRequest l h r) := by
  have received : exec (r.command t l h) s
      = s.atTick t (State.receive l (serviceBytes h r) h.role (State.serveRequest l h r)) := by
    cases r <;> rfl
  rw [received, State.atTick_receive live (checkFrame_serviceBytes intact addressed)]

/-! ## The access rule (R156) -/

theorem State.mayChange_iff (s : State) (l : Link) (r : Role) :
    s.mayChange l r = true ↔ r = .active ∧ s.sel = l := by
  simp [State.mayChange]

section
variable {s : State} {l : Link} {h : ServiceHead} {code : BitVec 4}
  {run : State → State × ServiceResult × List Byte}

theorem State.change_answered (role : h.role = .active) (sel : s.sel = l) {u : State}
    {result : ServiceResult} {data : List Byte} (ran : run s = (u, result, data)) :
    s.change l h code run = u.replyService l h.address code result data := by
  rw [State.change, if_pos ((s.mayChange_iff l h.role).2 ⟨role, sel⟩), ran]

/-- Every changing request meets the access rule first (R156). -/
theorem State.serveRequest_refused {r : Request} (changing : r.changing = true)
    (denied : s.mayChange l h.role = false) :
    s.serveRequest l h r = s.replyService l h.address r.code .notActive [] := by
  cases r with
  | lookUpLevel | lookUpValve | seek | walk | configRead => cases changing
  | _ => exact if_neg (by simp [denied])

end

/-! ## The address of a record (R74) -/

theorem valveOf_eq {j : Byte} {v : Valve} (h : j.toNat = v.val + 1) : valveOf j = some v := by
  have range : 1 ≤ j.toNat ∧ j.toNat ≤ Config.valveCount := by
    have := v.isLt
    omega
  rw [valveOf, dif_pos range]
  exact congrArg some (Fin.ext (by simp [h]))

theorem valveOf_none {j : Byte} (h : ∀ v : Valve, j.toNat ≠ v.val + 1) : valveOf j = none := by
  refine dif_neg fun ⟨first, last⟩ => h ⟨j.toNat - 1, by omega⟩ ?_
  simp only
  omega

section
variable {s : State} {j p : Byte} {v : Valve}

theorem State.installedAt_eq (valve : j.toNat = v.val + 1) (first : 1 ≤ p.toNat) (last : p.toNat ≤ 80)
    (installed : ((s.valve v).level p.toNat).state ≠ .absent) :
    s.installedAt j p = some (v, p.toNat) := by
  have range : inRange 1 Config.positionCount p.toNat = true := by simp [inRange, first, last]
  have address : addressOf j p = some (v, p.toNat) := by
    rw [addressOf, if_pos range, valveOf_eq valve]
    rfl
  simp only [State.installedAt, address, if_neg installed]

/-- No record is installed out of range, or where it is ABSENT. -/
theorem State.installedAt_none (h : (∀ v : Valve, j.toNat ≠ v.val + 1) ∨ p.toNat = 0 ∨ 80 < p.toNat
    ∨ ∃ v : Valve, j.toNat = v.val + 1 ∧ ((s.valve v).level p.toNat).state = .absent) :
    s.installedAt j p = none := by
  by_cases range : inRange 1 Config.positionCount p.toNat = true
  · have inside : 1 ≤ p.toNat ∧ p.toNat ≤ 80 := by simpa [inRange] using range
    rcases h with h | h | h | ⟨v, hv, absent⟩
    · have address : addressOf j p = none := by rw [addressOf, if_pos range, valveOf_none h]; rfl
      simp only [State.installedAt, address]
    · omega
    · omega
    · have address : addressOf j p = some (v, p.toNat) := by
        rw [addressOf, if_pos range, valveOf_eq hv]; rfl
      simp only [State.installedAt, address, if_pos absent]
  · have address : addressOf j p = none := if_neg range
    simp only [State.installedAt, address]

/-! ## The checks of a maintenance request (R74) -/

/-- A request on the record at (j, p) is NO_CONFIG outside READY, then BAD_ADDRESS where none is installed,
and changes nothing in either case. -/
structure ChecksRecord (j p : Byte) (run : State → State × ServiceResult × List Byte) : Prop where
  outside : ∀ s, s.isReady = false → run s = (s, .noConfig, [])
  missing : ∀ s, s.isReady = true → s.installedAt j p = none → run s = (s, .badAddress, [])

theorem State.retireRequest_checks (k : Link) (j p : Byte) :
    ChecksRecord j p (State.retireRequest k j p) where
  outside s h := by simp [State.retireRequest, h]
  missing s h none := by simp [State.retireRequest, h, none]

theorem State.restoreRequest_checks (j p : Byte) : ChecksRecord j p (State.restoreRequest j p) where
  outside s h := by simp [State.restoreRequest, h]
  missing s h none := by simp [State.restoreRequest, h, none]

theorem State.clearCountsRequest_checks (j p : Byte) :
    ChecksRecord j p (State.clearCountsRequest j p) where
  outside s h := by simp [State.clearCountsRequest, h]
  missing s h none := by simp [State.clearCountsRequest, h, none]

/-- The three maintenance requests are changing requests that check their record. -/
theorem Request.maintenance {r : Request} (h : r = .retire j p ∨ r = .restore j p ∨ r = .clearCounts j p)
    (l : Link) (q : ServiceHead) : ∃ run, ChecksRecord j p run ∧
      ∀ s : State, s.serveRequest l q r = s.change l q r.code run := by
  rcases h with rfl | rfl | rfl
  · exact ⟨_, State.retireRequest_checks l j p, fun _ => rfl⟩
  · exact ⟨_, State.restoreRequest_checks j p, fun _ => rfl⟩
  · exact ⟨_, State.clearCountsRequest_checks j p, fun _ => rfl⟩

end

/-- Settles O49: the access rule is the first check, the unit's the second, the address the third. -/
theorem changingRequestsAreChecked : Obligations.ChangingRequestsAreChecked := by
  intro s t l h r live addressed intact s1 answer
  have run := exec_command live addressed intact t l
  refine ⟨fun changing denied => ?_, fun j p maintains role sel => ?_⟩
  · have refused : s1.mayChange l h.role = false := by
      rw [Bool.eq_false_iff, Ne, State.mayChange_iff]
      rintro ⟨active, selected⟩
      rcases denied with standby | other
      · rw [standby] at active
        cases active
      · exact other selected
    rw [run, State.serveRequest_refused changing refused]
  · obtain ⟨maintain, checks, serves⟩ := Request.maintenance maintains l h
    have ready : s1.isReady = s.isReady := by
      unfold State.isReady State.working
      rw [State.heard_unit]
    rw [run, serves]
    refine ⟨fun outside => ?_, fun inside missing => ?_⟩
    · rw [State.change_answered role sel (checks.outside s1 (ready.trans outside))]
    · have none : s1.installedAt j p = none := State.installedAt_none (by simpa [s1] using missing)
      rw [State.change_answered role sel (checks.missing s1 (ready.trans inside) none)]

end Sys2Proof.Machine
end

section
/-! PROOF. RETIRE, RESTORE and CLEAR COUNTS of an installed record (R68, R75 to R79, R155, R160). -/

namespace Sys2Proof.Machine

open Sys2Proof

/-! ## The requests on an installed record -/

theorem State.wouldExhaust_iff (s : State) (v : Valve) (p : Nat) :
    s.wouldExhaust v p = true ↔ s.group.mode ≠ .blocked
      ∧ ((s.valve v).level p).state.counting = true ∧ (s.valve v).failed = s.par (Par.rv v) := by
  simp [State.wouldExhaust, and_assoc]

theorem LevelState.failed_iff (st : LevelState) :
    st.failed = true ↔ st = .dark ∨ st = .faulted ∨ st = .retired := by
  cases st <;> decide

section
variable {s : State} {j p : Byte} {v : Valve} {q : Nat} (ready : s.isReady = true)
  (found : s.installedAt j p = some (v, q))
include ready found

theorem State.retireRequest_refused (k : Link) (h : s.wouldExhaust v q = true) :
    s.retireRequest k j p = (s, .wouldExhaust, []) := by
  simp [State.retireRequest, ready, found, h]

theorem State.retireRequest_accepted (k : Link) (h : ¬ s.wouldExhaust v q = true) :
    s.retireRequest k j p
      = (s.retireLevel k v q, .ok, (s.retireLevel k v q).levelData v q) := by
  simp [State.retireRequest, ready, found, h]

theorem State.restoreRequest_accepted
    (h : s.group.mode = .blocked ∧ ((s.valve v).level q).state.failed = true) :
    s.restoreRequest j p = (s.restoreLevel v q, .ok, (s.restoreLevel v q).levelData v q) := by
  simp [State.restoreRequest, ready, found, h]

theorem State.restoreRequest_refused
    (h : ¬ (s.group.mode = .blocked ∧ ((s.valve v).level q).state.failed = true)) :
    s.restoreRequest j p = (s, .wrongMode, []) := by
  simp only [State.restoreRequest, ready, found, h, Bool.not_true, if_false, Bool.false_eq_true]

theorem State.clearCountsRequest_accepted :
    s.clearCountsRequest j p
      = (s.clearLevelCounts v q, .ok, (s.clearLevelCounts v q).levelData v q) := by
  simp [State.clearCountsRequest, ready, found]

end

/-- A change of state settled: nothing is handed on where there is none. -/
theorem State.handChange_settle {s : State} (quiet : s.handed = []) (j : Valve) (old new : LevelState) :
    (s.handChange j old new).settle
      = if old = new then s else (s.levelChange j (old, new)).settle := by
  unfold State.handChange
  split
  · exact State.settle_nil quiet
  · rfl

/-- An accepted RETIRE where nothing is handed yet (R68, R76). -/
theorem State.retireLevel_settled {s : State} (quiet : s.handed = []) (k : Link) (v : Valve) (p : Nat) :
    let w := s.valve v
    let r := w.level p
    let u := s.replaceLevel v p (r.retire k) { w.monitor with indicated := w.monitor.indicated
      - if r.indicated = true ∧ r.state.counting = true then 1 else 0 }
    s.retireLevel k v p
      = if r.state = .retired then u else (u.levelChange v (r.state, .retired)).settle := by
  intro w r u
  have handed : u.handed = [] := quiet
  rw [State.retireLevel_eq]
  exact State.handChange_settle handed ..

/-- An accepted RESTORE of a failed record (R78). -/
theorem State.restoreLevel_failed {s : State} {v : Valve} {p : Nat}
    (failed : ((s.valve v).level p).state.failed = true) :
    let w := s.valve v
    s.restoreLevel v p = ((s.replaceLevel v p (w.level p).restore w.monitor).levelChange v
      ((w.level p).state, .unproven)).settle := by
  intro w
  have changes : (w.level p).state ≠ .unproven := fun h => by
    rw [h] at failed
    cases failed
  rw [State.restoreLevel, State.stampLevel_eq, State.handChange_changed changes]

/-- A record replaced in the state that a valid frame leaves. -/
theorem State.replaceLevel_heard (s : State) (t : Instant) (l : Link) (r : Role) (v : Valve) (p : Nat)
    (l' : Level) (m : Monitor) :
    (s.heard t l r).replaceLevel v p l' m
      = ({ s.heard t l r with
          counter := if s.counter < 4294967295 then s.counter + 1 else s.counter }).setValve v
        { s.valve v with
          levels := (s.valve v).levels.set (p - 1)
            { l' with stamp := if s.counter < 4294967295 then s.counter + 1 else 0 }
          monitor := m } := by
  rw [State.replaceLevel, State.heard_valve, State.heard_counter]
  rfl

section
variable {s : State} {t : Instant} {l : Link} {h : ServiceHead} {j p : Byte} {v : Valve} {im : Image}

/-- What a maintenance request finds where a record is installed in READY. -/
theorem State.heard_installed (ready : s.unit = .ready im) (valve : j.toNat = v.val + 1)
    (first : 1 ≤ p.toNat) (last : p.toNat ≤ 80)
    (installed : ((s.valve v).level p.toNat).state ≠ .absent) (r : Role) :
    (s.heard t l r).isReady = true ∧ (s.heard t l r).installedAt j p = some (v, p.toNat) :=
  ⟨State.isReady_ready (by rwa [State.heard_unit]),
    State.installedAt_eq valve first last (by rwa [State.heard_valve])⟩

end

/-- Settles O50: the check of R75 reads what the frame's arrival leaves alone, and an accepted RETIRE is
one record replaced and its change handed on. -/
theorem retireTakesTheLevelOut : Obligations.RetireTakesTheLevelOut := by
  intro s t l h j p v im ready addressed intact role sel valve first last installed s1 w record counts
    exhausts s2 s3
  obtain ⟨isReady, found⟩ := State.heard_installed (t := t) (l := l) ready valve first last installed
    .active
  have run := exec_command (State.live_ready ready) addressed intact t l
  rw [role] at run
  have checked : s1.wouldExhaust v p.toNat = true ↔ exhausts := by
    have par : s1.par (Par.rv v) = Par.rv v im := State.par_ready (by rwa [State.heard_unit]) _
    rw [State.wouldExhaust_iff, par, State.heard_valve, State.heard_group]
  have retired : s1.retireLevel l v p.toNat = s3 := by
    rw [State.retireLevel_settled (State.heard_handed ..), State.replaceLevel_heard, State.heard_valve]
    rfl
  refine ⟨fun refused => ?_, fun accepted => ?_⟩
  · rw [show exec (.retire t l h j p) s = _ from run]
    exact congrArg _ (State.change_answered role sel
      (State.retireRequest_refused isReady found l (checked.2 refused)))
  · rw [show exec (.retire t l h j p) s = _ from run, ← retired, valve]
    exact congrArg _ (State.change_answered role sel
      (State.retireRequest_accepted isReady found l (mt checked.1 accepted)))

/-- Settles O51: a failed record is not UNPROVEN, so RESTORE changes its state; CLEAR COUNTS changes none. -/
theorem restoreAndClearCountsAct : Obligations.RestoreAndClearCountsAct := by
  intro s t l h j p v im ready addressed role sel valve first last installed s1 w record stamped restored
    cleared restorable
  obtain ⟨isReady, found⟩ := State.heard_installed (t := t) (l := l) ready valve first last installed
    .active
  have serve {r : Request} (intact : serviceIntact h r) :
      exec (r.command t l h) s = .next (s1.serveRequest l h r) := by
    rw [exec_command (State.live_ready ready) addressed intact, role]
  have checked : (s1.group.mode = .blocked ∧ ((s1.valve v).level p.toNat).state.failed = true)
      ↔ restorable := by
    rw [State.heard_group, State.heard_valve, LevelState.failed_iff]
  refine ⟨fun intact allowed => ?_, fun intact refused => ?_, fun intact => ?_⟩
  · have restores : s1.restoreLevel v p.toNat = restored := by
      rw [State.restoreLevel_failed (checked.2 allowed).2, State.replaceLevel_heard, State.heard_valve]
      rfl
    rw [show exec (.restore t l h j p) s = _ from serve intact, ← restores, valve]
    exact congrArg _ (State.change_answered role sel
      (State.restoreRequest_accepted isReady found (checked.2 allowed)))
  · rw [show exec (.restore t l h j p) s = _ from serve intact]
    exact congrArg _ (State.change_answered role sel
      (State.restoreRequest_refused isReady found (mt checked.1 refused)))
  · have clears : s1.clearLevelCounts v p.toNat = cleared := by
      rw [State.clearLevelCounts, State.stampLevel_eq, State.replaceLevel_heard, State.heard_valve]
      rfl
    rw [show exec (.clearCounts t l h j p) s = _ from serve intact, ← clears, valve]
    exact congrArg _ (State.change_answered role sel (State.clearCountsRequest_accepted isReady found))

end Sys2Proof.Machine
end

section
/-! PROOF. One change of a level's state as it is handed on: the words posted, the causes handed, and the
margin against Rv (R60, R85 to R87). -/

namespace Sys2Proof.Machine

open Sys2Proof

/-! ## The margin of a failed count (R86) -/

theorem marginOf_ample_iff {failed rv : Nat} : marginOf failed rv = .ample ↔ failed < rv := by
  unfold marginOf
  split
  · simpa
  · split <;> simp <;> omega

theorem marginOf_atLimit_iff {failed rv : Nat} : marginOf failed rv = .atLimit ↔ failed = rv := by
  unfold marginOf
  split
  · simp
    omega
  · split <;> simpa

theorem marginOf_exhausted_iff {failed rv : Nat} :
    marginOf failed rv = .exhausted ↔ rv < failed := by
  unfold marginOf
  split
  · simp
    omega
  · split <;> simp <;> omega

/-! ## One change handed on -/

/-- STATE is posted at every change, MARGIN where the margin moves (R60, R86). -/
theorem State.levelChange_word (s : State) (j : Valve) (c : LevelState × LevelState) (l : Link) :
    let m := (s.valve j).monitor
    (s.levelChange j c).word l (.valve j) = s.word l (.valve j) ||| (valveState
      ||| if s.marginAt j (m.tally.move c.1 c.2) = m.margin then 0 else valveMargin) := by
  intro m
  have tallied : (s.tallied j c).word l (.valve j) = s.word l (.valve j) ||| valveState := by
    rw [State.tallied, State.word_setValve, State.post_word, if_pos rfl]
  rw [State.levelChange_eq]
  by_cases unmoved : s.marginAt j (m.tally.move c.1 c.2) = m.margin
  · rw [if_pos unmoved, if_pos unmoved, tallied]
    exact congrArg _ BitVec.or_zero.symm
  · have posted : ((s.tallied j c).post (.valve j) valveMargin).word l (.valve j)
        = s.word l (.valve j) ||| (valveState ||| valveMargin) := by
      rw [State.post_word, if_pos rfl, tallied, BitVec.or_assoc]
    rw [if_neg unmoved, if_neg unmoved]
    split
    · rw [State.word_hand, posted]
    · exact posted

/-- REDUNDANCY is handed at a change of margin into EXHAUSTED (R87). -/
theorem State.levelChange_handed (s : State) (j : Valve) (c : LevelState × LevelState) :
    let m := (s.valve j).monitor
    (s.levelChange j c).handed
      = if s.marginAt j (m.tally.move c.1 c.2) = .exhausted ∧ m.margin ≠ .exhausted
        then s.handed ++ [.redundancy] else s.handed := by
  intro m
  rw [State.levelChange_eq]
  by_cases unmoved : s.marginAt j (m.tally.move c.1 c.2) = m.margin
  · rw [if_pos unmoved, if_neg fun h => h.2 (unmoved.symm.trans h.1)]
    rfl
  · rw [if_neg unmoved]
    by_cases exhausted : s.marginAt j (m.tally.move c.1 c.2) = .exhausted
    · rw [if_pos exhausted, if_pos ⟨exhausted, fun h => unmoved (exhausted.trans h.symm)⟩]
      rfl
    · rw [if_neg exhausted, if_neg fun h => exhausted h.1]
      rfl

/-- Settles O31: tally and margin as the monitor leaves them, the words and the causes by whether the
margin moves, and the rest from the frame of a change. -/
theorem levelChangeIsTalliedAndJudged : Obligations.LevelChangeIsTalliedAndJudged := by
  intro s j im old new ready v u w count
  obtain ⟨counter, -, group, -, sent, -, others, own, words, -⟩ := s.levelChange_frame j (old, new)
  have monitor : w.monitor = { v.monitor with
      tally := v.monitor.tally.move old new
      margin := s.marginAt j (v.monitor.tally.move old new) } := s.levelChange_monitor j (old, new)
  have tally : w.monitor.tally = v.monitor.tally.move old new := by rw [monitor]
  have judged : w.monitor.margin = s.marginAt j (v.monitor.tally.move old new) := by rw [monitor]
  have margin : w.monitor.margin = marginOf w.failed (Par.rv j im) := by
    rw [judged, State.marginAt, State.par_ready ready, ValveRecord.failed, tally]
  have counts (t : Tally) (st : LevelState) : count t st = t.count st := by cases st <;> rfl
  refine ⟨fun moves st installed => ?_, ?_, ?_, ?_, rfl, rfl, fun l => ?_, words, ?_, own, others,
    counter, sent, group, s.levelChange_rest j (old, new)⟩
  · rw [counts, counts, tally]
    exact Tally.count_move _ moves installed
  · rw [margin, marginOf_ample_iff]
  · rw [margin, marginOf_atLimit_iff]
  · rw [margin, marginOf_exhausted_iff]
  · rw [judged]
    exact s.levelChange_word j (old, new) l
  · rw [judged]
    exact s.levelChange_handed j (old, new)

end Sys2Proof.Machine
end

section
/-! PROOF. What a firing, and the taking of the causes that it handed, leave to a CONDUCTING valve: its
interval, and outside RUNNING its schedule (R34, R88, R89, R137). -/

namespace Sys2Proof.Machine

open Sys2Proof

/-! ## A CONDUCTING valve while causes are taken -/

/-- Valve `j`, where it conducts, goes on conducting in the same interval; and RUNNING is not entered, so
that outside it no schedule is cancelled (R34, R88). -/
structure IntervalKept (s u : State) (j : Valve) : Prop where
  interval : (s.valve j).monitor.phase = .conducting → (u.valve j).monitor.phase = .conducting
    ∧ (u.valve j).monitor.indicated = (s.valve j).monitor.indicated
    ∧ (u.valve j).monitor.distinctPfi = (s.valve j).monitor.distinctPfi
  schedule : s.group.mode ≠ .running →
    u.group.mode ≠ .running ∧ (u.valve j).schedule = (s.valve j).schedule

namespace IntervalKept

theorem trans {s u w : State} {j : Valve} (h : IntervalKept s u j) (h' : IntervalKept u w j) :
    IntervalKept s w j where
  interval conducting :=
    have ⟨phase, indicated, distinct⟩ := h.interval conducting
    have ⟨phase', indicated', distinct'⟩ := h'.interval phase
    ⟨phase', indicated'.trans indicated, distinct'.trans distinct⟩
  schedule idle :=
    have ⟨idle', same⟩ := h.schedule idle
    have ⟨idle'', same'⟩ := h'.schedule idle'
    ⟨idle'', same'.trans same⟩

theorem of_valve {s u : State} {j : Valve} (valve : u.valve j = s.valve j)
    (mode : s.group.mode ≠ .running → u.group.mode ≠ .running) : IntervalKept s u j where
  interval conducting := by rw [valve]; exact ⟨conducting, rfl, rfl⟩
  schedule idle := ⟨mode idle, by rw [valve]⟩

theorem refl (s : State) (j : Valve) : IntervalKept s s j := of_valve rfl id

end IntervalKept

/-- A fire message to a CONDUCTING valve leaves its interval open (R88). -/
theorem State.fire_interval {s : State} {j : Valve}
    (h : (s.valve j).monitor.phase = .conducting) (k : FireKind) :
    ((s.fire k j).valve j).monitor.phase = .conducting
    ∧ ((s.fire k j).valve j).monitor.indicated = (s.valve j).monitor.indicated
    ∧ ((s.fire k j).valve j).monitor.distinctPfi = (s.valve j).monitor.distinctPfi := by
  obtain ⟨-, -, -, -, -, -, phase, -⟩ := s.fireOwn_frame k j
  obtain ⟨-, conducting, -⟩ := s.fireOwn_valve k j
  obtain ⟨-, -, indicated, distinct, -⟩ := conducting h
  rw [(s.fire_own k j).1]
  exact ⟨phase, indicated, distinct⟩

theorem State.fire_mode (s : State) (k : FireKind) (j : Valve) :
    (s.fire k j).group.mode = s.group.mode := by
  rw [(s.fire_commutated k j).eq]
  exact s.fireOwn_mode k j

/-- A firing moves of its valve's schedule the count of what is pulled in alone. -/
theorem State.fire_schedule (s : State) {k : FireKind} (hk : k ≠ .pulledIn) (j : Valve) :
    ((s.fire k j).valve j).schedule = (s.valve j).schedule := by
  obtain ⟨-, -, -, -, -, -, -, -, -, schedule, -⟩ := s.fireOwn_frame k j
  rw [(s.fire_own k j).1, schedule]
  cases k with
  | pulledIn => exact absurd rfl hk
  | _ => rfl

/-- A BYPASS message outside RUNNING, to this valve or to another (R88, R134). -/
theorem State.fireBypass_kept {s : State} (idle : s.group.mode ≠ .running) (i j : Valve) :
    IntervalKept s (s.fire .bypass i) j := by
  have mode : (s.fire .bypass i).group.mode ≠ .running := by rwa [s.fire_mode]
  by_cases own : j = i
  · subst own
    exact ⟨fun conducting => State.fire_interval conducting .bypass,
      fun _ => ⟨mode, s.fire_schedule (k := .bypass) nofun j⟩⟩
  · obtain ⟨-, -, -, -, -, others, -⟩ := s.fireOwn_frame .bypass i
    refine .of_valve ?_ fun _ => mode
    rw [State.fire_idle idle]
    exact others j own

theorem foldl_fireBypass_kept (js : List Valve) {s : State} (idle : s.group.mode ≠ .running)
    (j : Valve) : IntervalKept s (js.foldl (fun w i => w.fire .bypass i) s) j := by
  induction js generalizing s with
  | nil => exact .refl s j
  | cons i js ih =>
    have first := State.fireBypass_kept idle i j
    exact first.trans (ih (first.schedule idle).1)

/-- Leaving a mode cancels schedules, and those in RUNNING alone (R34). -/
theorem State.leaveMode_kept (s : State) {u : State} {j : Valve}
    (valve : u.valve j = s.leaveMode.valve j) (mode : u.group.mode ≠ .running) :
    IntervalKept s u j := by
  rw [s.leaveMode_valve] at valve
  split at valve
  · rename_i running
    exact ⟨fun conducting => by rw [valve]; exact ⟨conducting, rfl, rfl⟩,
      fun idle => absurd running idle⟩
  · exact .of_valve valve fun _ => mode

theorem State.enterBlocked_kept (s : State) (j : Valve) : IntervalKept s s.enterBlocked j :=
  s.leaveMode_kept rfl nofun

theorem State.enterBypass_kept (s : State) (j : Valve) : IntervalKept s s.enterBypass j := by
  have entered : IntervalKept s s.bypassEntered j := s.leaveMode_kept rfl nofun
  have idle : s.bypassEntered.group.mode ≠ .running := nofun
  have fired : IntervalKept s.bypassEntered s.bypassFired j := foldl_fireBypass_kept _ idle j
  refine (entered.trans fired).trans (.of_valve (s.enterBypass_valve j) fun _ => ?_)
  rw [s.enterBypass_group]
  nofun

theorem State.addTrip_kept (s : State) (c : TripCause) (j : Valve) :
    IntervalKept s (s.addTrip c) j := by
  have added := (s.addTrip_added c).eq
  refine .of_valve ?_ ?_ <;> rw [added]
  · rfl
  · exact id

theorem State.actOnTrip_kept (s : State) (c : TripCause) (j : Valve) :
    IntervalKept s (s.actOnTrip c) j := by
  unfold State.actOnTrip
  split
  · exact .refl s j
  · exact .refl s j
  · exact (s.enterBlocked_kept j).trans (.of_valve rfl id)
  · split
    · exact s.enterBypass_kept j
    · exact .refl s j

theorem State.latch_kept (s : State) (c : TripCause) (j : Valve) : IntervalKept s (s.latch c) j := by
  unfold State.latch
  split
  · exact .refl s j
  · split
    · exact s.addTrip_kept c j
    · exact (s.addTrip_kept c j).trans (State.actOnTrip_kept ..)

theorem State.settle_kept (s : State) (j : Valve) : IntervalKept s s.settle j := by
  have taken : IntervalKept s { s with handed := [] } j := .of_valve rfl id
  have fold (cs : List TripCause) (w : State) : IntervalKept w (cs.foldl State.latch w) j := by
    induction cs generalizing w with
    | nil => exact .refl w j
    | cons c cs ih => exact (w.latch_kept c j).trans (ih _)
  exact taken.trans (fold s.handed _)

/-- While causes are taken a schedule stays unless the mode changes (R34, R103). -/
theorem State.settle_schedule {s : State} (mode : s.settle.group.mode = s.group.mode) (j : Valve) :
    (s.settle.valve j).schedule = (s.valve j).schedule := by
  by_cases running : s.group.mode = .running
  · obtain ⟨-, same⟩ := s.settle_settled.running (mode.trans running)
    rw [same]
  · exact ((s.settle_kept j).schedule running).2

end Sys2Proof.Machine
end

section
/-! PROOF. The protective firing: what triggers it, the held firing issued right after it, and the causes
of its closing taken (R88, R98, R102 to R104). -/

namespace Sys2Proof.Machine

open Sys2Proof

/-! ## The protective message -/

/-- The protective message with its event, before a held firing is issued (R102). -/
def State.protect (j : Valve) (s : State) : State :=
  (s.fire .protective j).post (.valve j) valveProtective

theorem State.protect_valve (s : State) (j : Valve) :
    (s.protect j).valve j = (s.fire .protective j).valve j := State.valve_post ..

theorem State.protect_schedule (s : State) (j : Valve) :
    ((s.protect j).valve j).schedule = (s.valve j).schedule := by
  rw [s.protect_valve, s.fire_schedule (k := .protective) nofun]

/-- The firing ends an open quorum wait with the held firing (R104). -/
theorem State.fireProtective_eq (s : State) (j : Valve) : s.fireProtective j
    = if (s.valve j).schedule.expiry.isSome then (s.protect j).issue .scheduled j
      else s.protect j := by
  rw [← s.protect_schedule]
  rfl

/-- Valve `j` has been fired PROTECTIVE between `s` and `u`: PROTECTIVE is posted, and a new interval is
open (R88, R102). -/
structure Protected (s u : State) (j : Valve) : Prop where
  fired : Fired s u s.timebase .protective j
  posted : ∀ l, u.word l (.valve j) &&& valveProtective = valveProtective
  indicated : (u.valve j).monitor.indicated = 0
  distinctPfi : (u.valve j).monitor.distinctPfi = 0
  rest : RestKept s u

/-- The message closes the interval of a valve that does not conduct (R88, R102). -/
theorem State.protect_protected {s : State} {j : Valve}
    (h : (s.valve j).monitor.phase ≠ .conducting) : Protected s (s.protect j) j := by
  obtain ⟨-, -, closing⟩ := s.fireOwn_valve .protective j
  obtain ⟨-, -, indicated, distinct⟩ := closing h
  refine ⟨(s.fire_fired .protective j).post .., fun l => State.post_posted .., ?_, ?_,
    (s.fire_rest ..).trans (State.post_rest ..)⟩ <;> rw [s.protect_valve, (s.fire_own ..).1]
  · exact indicated
  · exact distinct

/-- A firing of one kind counts as none of another. -/
theorem State.fire_count (s : State) {k k' : FireKind} (h : k' ≠ k) (j : Valve) :
    ((s.fire k j).valve j).firingCount k' = (s.valve j).firingCount k' := by
  obtain ⟨counts, -⟩ := s.fireOwn_valve k j
  rw [(s.fire_own k j).1, counts, if_neg h]

theorem State.issue_count (s : State) {k k' : FireKind} (h : k' ≠ k) (j : Valve) :
    ((s.issue k j).valve j).firingCount k' = (s.valve j).firingCount k' := by
  rw [s.issue_valve, ValveRecord.firingCount_schedule _ (ValveRecord.issued_pulledIn _),
    s.fire_count h]

theorem State.issue_grow (s : State) (k : FireKind) (j : Valve) : WordsGrow s (s.issue k j) :=
  (s.fire_grow k j).modValve ..

theorem State.issue_mode (s : State) (k : FireKind) (j : Valve) :
    (s.issue k j).group.mode = s.group.mode := s.fire_mode k j

theorem State.issue_monitor (s : State) (k : FireKind) (j : Valve) :
    ((s.issue k j).valve j).monitor = ((s.fire k j).valve j).monitor := by
  rw [s.issue_valve]

/-- A firing stays one when the valve is fired again at the same instant, as another kind (R89). -/
theorem Fired.issued {s u : State} {t : Instant} {k k' : FireKind} {j : Valve} (h : Fired s u t k j)
    (ht : u.timebase = t) (hk : k ≠ k') : Fired s (u.issue k' j) t k j := by
  obtain ⟨⟨later, earlier, sent⟩, -, -, -, count⟩ := h
  obtain ⟨⟨later', earlier', sent'⟩, lastFire, lastSend, phase, -⟩ := ht ▸ u.issue_fired k' j
  refine ⟨⟨later' ++ u.fireSent t j :: (earlier' ++ later), earlier, ?_⟩, lastFire, lastSend, phase,
    (u.issue_count hk j).trans count⟩
  rw [sent', sent]
  simp only [List.append_assoc, List.cons_append]

namespace Protected

variable {s u : State} {j : Valve}

theorem conducting (h : Protected s u j) : (u.valve j).monitor.phase = .conducting := by
  obtain ⟨-, -, -, phase, -⟩ := h.fired
  exact phase

/-- The held firing finds the valve CONDUCTING, and leaves its interval open (R89, R104). -/
theorem issued (h : Protected s u j) : Protected s (u.issue .scheduled j) j := by
  obtain ⟨-, indicated, distinct⟩ := State.fire_interval h.conducting .scheduled
  refine ⟨h.fired.issued h.rest.timebase nofun,
    fun l => (u.issue_grow .scheduled j).pending l _ _ (h.posted l), ?_, ?_,
    h.rest.trans (State.issue_rest ..)⟩ <;> rw [State.issue_monitor]
  · rw [indicated, h.indicated]
  · rw [distinct, h.distinctPfi]

/-- Causes taken, an entry to BYPASS among them, leave the interval open (R88, R137). -/
theorem settled (h : Protected s u j) : Protected s u.settle j := by
  obtain ⟨-, indicated, distinct⟩ := (u.settle_kept j).interval h.conducting
  have taken := u.settle_settled
  exact ⟨h.fired.settled h.rest.timebase nofun taken,
    fun l => taken.words.pending l _ _ (h.posted l), indicated.trans h.indicated,
    distinct.trans h.distinctPfi, h.rest.trans taken.rest⟩

end Protected

/-- A protective firing, with the held firing that it issues. -/
theorem State.fireProtective_protected {s : State} {j : Valve}
    (h : (s.valve j).monitor.phase ≠ .conducting) : Protected s (s.fireProtective j) j := by
  have message := State.protect_protected h
  rw [s.fireProtective_eq]
  split
  · exact message.issued
  · exact message

/-! ## The Firing Scheduler's work (R103, R104) -/

theorem State.protect_scheduled (s : State) (j : Valve) :
    ((s.protect j).valve j).monitor.scheduled = (s.valve j).monitor.scheduled := by
  rw [s.protect_valve]
  exact s.fire_count (k := .protective) (k' := .scheduled) nofun j

theorem State.fireProtective_mode (s : State) (j : Valve) :
    (s.fireProtective j).group.mode = s.group.mode := by
  have message : (s.protect j).group.mode = s.group.mode := s.fire_mode .protective j
  rw [s.fireProtective_eq]
  split
  · rw [State.issue_mode, message]
  · exact message

/-- Without an open quorum wait the schedule and the scheduled count stay (R103). -/
theorem State.fireProtective_unheld {s : State} {j : Valve}
    (h : (s.valve j).schedule.expiry = none) :
    ((s.fireProtective j).valve j).schedule = (s.valve j).schedule
    ∧ ((s.fireProtective j).valve j).monitor.scheduled = (s.valve j).monitor.scheduled := by
  rw [s.fireProtective_eq, if_neg (by simp [h])]
  exact ⟨s.protect_schedule j, s.protect_scheduled j⟩

/-- An open quorum wait ends: the held firing is counted SCHEDULED, and its Fj and the expiry are removed
(R30, R104). -/
theorem State.fireProtective_held {s : State} {j : Valve}
    (h : (s.valve j).schedule.expiry.isSome) :
    (s.fireProtective j).nothingUnissued j
    ∧ ((s.fireProtective j).valve j).monitor.scheduled
        = min 65535 ((s.valve j).monitor.scheduled + 1) := by
  obtain ⟨-, -, -, -, count⟩ := (s.protect j).issue_fired .scheduled j
  rw [s.fireProtective_eq, if_pos h, ← s.protect_scheduled j]
  exact ⟨State.issue_unissued .., count⟩

/-- The zeros and Dj stay, whether or not a firing was held (R103). -/
theorem State.fireProtective_keeps_zeros_deadline (s : State) (j : Valve) :
    ((s.fireProtective j).valve j).schedule.zeros = (s.valve j).schedule.zeros
    ∧ ((s.fireProtective j).valve j).schedule.deadline = (s.valve j).schedule.deadline := by
  rw [s.fireProtective_eq]
  split
  · rw [State.issue_schedule, s.protect_schedule]
    exact ⟨rfl, rfl⟩
  · rw [s.protect_schedule]
    exact ⟨rfl, rfl⟩

/-- A protective firing, and the causes taken after it: what has been fired stays so, an open wait has
ended, and no schedule is cancelled but by a change of mode (R102 to R104). -/
theorem State.fireProtective_settled {s u : State} {j : Valve}
    (h : (s.valve j).monitor.phase ≠ .conducting) (hu : u = (s.fireProtective j).settle) :
    let v := s.valve j
    let w := u.valve j
    Protected s u j
    ∧ (v.schedule.expiry = none → w.monitor.scheduled = v.monitor.scheduled)
    ∧ (v.schedule.expiry.isSome →
        w.monitor.scheduled = min 65535 (v.monitor.scheduled + 1) ∧ u.nothingUnissued j)
    ∧ w.schedule.zeros = v.schedule.zeros
    ∧ (u.group.mode = s.group.mode → w.schedule.deadline = v.schedule.deadline
        ∧ (v.schedule.expiry = none → w.schedule = v.schedule)) := by
  intro v w
  have message := State.fireProtective_protected h
  have mode := s.fireProtective_mode j
  obtain ⟨zeros, deadline⟩ := s.fireProtective_keeps_zeros_deadline j
  have unheld := State.fireProtective_unheld (s := s) (j := j)
  have held := State.fireProtective_held (s := s) (j := j)
  generalize s.fireProtective j = x at *
  subst hu
  have taken : ValveSettled x.timebase (x.valve j) w := x.settle_settled.valves j
  have count : w.monitor.scheduled = (x.valve j).monitor.scheduled := taken.counts .scheduled nofun
  have stays (unmoved : x.settle.group.mode = s.group.mode) : w.schedule = (x.valve j).schedule :=
    State.settle_schedule (unmoved.trans mode.symm) j
  refine ⟨message.settled, fun closed => count.trans (unheld closed).2, fun opened => ?_,
    taken.latched.zeros.trans zeros, fun unmoved => ?_⟩
  · obtain ⟨unissued, scheduled⟩ := held opened
    exact ⟨count.trans scheduled, taken.unissued unissued⟩
  · rw [stays unmoved]
    exact ⟨deadline, fun closed => (unheld closed).1⟩

/-! ## The trigger -/

/-- A PFI of a level that counts or is FAULTED leaves its state, and sets its flag anew where it is clear
(R63, R64). -/
theorem Level.take_pfi_credible {l : Level} (h : l.state.counting = true ∨ l.state = .faulted)
    (mark : Mark) (b : Instant) (cycle : Word16) :
    let a := l.take .pfi mark b cycle
    l.state ≠ .absent ∧ a.level.state = l.state ∧ a.pfiSet = !l.pfi := by
  rcases h with counts | faulted
  · rw [l.take_pfi_counting mark b cycle counts]
    exact ⟨LevelState.installed_of_counting counts, rfl, rfl⟩
  · rw [l.take_pfi_faulted mark b cycle faulted]
    exact ⟨by simp [faulted], rfl, rfl⟩

/-- An answer that leaves its record's state, given before the valve's firing, is no part of the firing. -/
theorem Fired.of_answered {s u : State} {t : Instant} {k : FireKind} {j : Valve} {p : Nat} {a : Answer}
    (installed : ((s.valve j).level p).state ≠ .absent)
    (same : a.level.state = ((s.valve j).level p).state) (h : Fired (s.answered j p a) u t k j) :
    Fired s u t k j := by
  obtain ⟨-, -, place⟩ := ValveRecord.installed installed
  have mask : fireMask ((s.valve j).levels.set (p - 1) a.level) = fireMask (s.valve j).levels :=
    maskFrom_set _ same place _
  have count (ls : List Level) : ({ s.valve j with
      levels := ls, monitor := (s.valve j).monitor.afterReport a } : ValveRecord).firingCount k
      = (s.valve j).firingCount k := by
    cases k <;> rfl
  rw [Fired, State.fireSent, State.answered_valve, mask, count] at h
  exact h

/-- The protective check triggers (R98, R102). -/
theorem State.protectiveDue_of {s : State} {j : Valve} {a : Answer} (p : Nat) (set : a.pfiSet = true)
    (enough : s.par (Par.ptv j) ≤ (s.valve j).monitor.distinctPfi + 1)
    (phase : (s.valve j).monitor.phase ≠ .conducting) :
    (s.answered j p a).protectiveDue j a = true := by
  have par : (s.answered j p a).par (Par.ptv j) = s.par (Par.ptv j) := rfl
  simp [State.protectiveDue, State.answered_valve, par, Monitor.afterReport, set, enough, phase]

/-- A PFI that triggers: its record and the counts, the protective firing, and the causes taken (R97,
R102). -/
theorem exec_pulseReport_protective {s : State} {t : Instant} {j : Valve} {body : List Byte}
    {r : PulseReport} {im : Image} (ready : s.unit = .ready im)
    (report : readMessage (0x81#8 :: body) = some (.report r)) (class' : classify im j t r = .pfi) :
    let s1 := (s.atInstant t).superviseMessage j
    let v := s1.valve j
    let l := v.level r.position
    l.state.counting = true ∨ l.state = .faulted → l.pfi = false →
    Par.ptv j im ≤ v.monitor.distinctPfi + 1 → v.monitor.phase ≠ .conducting →
    exec (.pulseReport t j body) s = .next ((s1.answered j r.position
      (l.take .pfi .interval r.stamp s.tracker.cycle)).fireProtective j).settle := by
  intro s1 v l credible clear enough phase
  have marked : s1.markOf j = .interval := (s1.markOf_interval j).2 fun marks => phase marks.1
  obtain ⟨installed, same, set⟩ := Level.take_pfi_credible credible .interval r.stamp s.tracker.cycle
  have par : s1.par (Par.ptv j) = Par.ptv j im := State.supervised_par ready _
  have due := State.protectiveDue_of (s := s1) r.position (set.trans (by rw [clear]; rfl))
    (par ▸ enough) phase
  rw [exec_pulseReport_taken (cls := .pfi) ready report class' installed, marked,
    show s1.applyAnswer j r.position _ = s1.answered j r.position _ from State.applyAnswer_same same,
    if_pos due]

/-- Settles O29: the protective firing, the held firing issued after it and the causes then taken each
leave what the firing has done; and no schedule is cancelled but by a change of mode. -/
theorem protectiveFiringActsInEveryMode : Obligations.ProtectiveFiringActsInEveryMode := by
  intro s t j body r im ready report class' s1 v l credible clear enough phase a fired
  obtain ⟨installed, same, -⟩ := Level.take_pfi_credible credible .interval r.stamp s.tracker.cycle
  obtain ⟨w, hw⟩ : ∃ w, w = s1.answered j r.position a := ⟨_, rfl⟩
  have record : w.valve j = { v with
      levels := v.levels.set (r.position - 1) a.level
      monitor := v.monitor.afterReport a } := hw ▸ State.answered_valve ..
  have schedule : (w.valve j).schedule = v.schedule := by rw [record]
  have scheduled : (w.valve j).monitor.scheduled = v.monitor.scheduled := by
    rw [record]
    rfl
  have phases : (w.valve j).monitor.phase ≠ .conducting := by
    rw [record]
    exact phase
  have time : w.timebase = t := hw ▸ (State.superviseMessage_rest ..).timebase
  have mode : w.group.mode = s.group.mode := by
    rw [hw]
    exact congrArg (·.mode) State.supervised_group
  have run := exec_pulseReport_protective ready report class' credible clear enough phase
  have issued : w.fireProtective j
      = if v.schedule.expiry.isSome then fired.issue .scheduled j else fired := by
    rw [w.fireProtective_eq, schedule, hw]
    rfl
  obtain ⟨u, hu⟩ : ∃ u, u = (w.fireProtective j).settle := ⟨_, rfl⟩
  obtain ⟨protect, unheld, held, zeros, stays⟩ := State.fireProtective_settled phases hu
  rw [schedule] at unheld held zeros stays
  rw [scheduled] at unheld held
  rw [mode] at stays
  refine ⟨u, ?_, by rw [hu, issued], ?_, protect.posted, protect.distinctPfi, protect.indicated,
    unheld, held, zeros, stays, ?_⟩
  · rw [hu, hw]
    exact run
  · have firing := protect.fired
    rw [time, hw] at firing
    exact firing.of_answered installed same
  · exact RestKept.trans (hw ▸ s1.setValve_rest j _) protect.rest

end Sys2Proof.Machine
end

section
/-! PROOF. One measurement of the Margin Guard written out: the extinction margin, the advance it moves and
the lowest margin of the cycle (R111, R112, R118). -/

namespace Sys2Proof.Machine

open Sys2Proof

/-! ## The values of a measurement -/

/-- The extinction margin over the words of the statement: the span in cdeg at the period, limited (R111). -/
theorem gammaOf_eq (b d : Instant) (p : Nat) :
    gammaOf b d p = min 30000 (roundedQuotient ((d - b).toNat * 36000) p) := rfl

theorem advanceAfter_of_short {a gamma gmin : Nat} (h : gamma < gmin) (advmax advdec : Nat) :
    advanceAfter a gamma gmin advmax advdec = min advmax (a + (gmin - gamma)) := if_pos h

theorem advanceAfter_of_enough {a gamma gmin : Nat} (h : ¬ gamma < gmin) (advmax advdec : Nat) :
    advanceAfter a gamma gmin advmax advdec = a - advdec := if_neg h

/-- The lowest margin of the cycle once `gamma` has been offered to it (R118). -/
def lowestAfter (lowest : Option Nat) (gamma : Nat) : Option Nat :=
  match lowest with
  | none => some gamma
  | some g => some (min g gamma)

theorem lowestAfter_eq (lowest : Option Nat) (gamma : Nat) :
    lowestAfter lowest gamma = some (min gamma (lowest.getD gamma)) := by
  cases lowest with
  | none => exact congrArg some (min_self gamma).symm
  | some g => exact congrArg some (min_comm g gamma)

/-! ## The measurement -/

section
variable {s : State} {im : Image} (ready : s.unit = .ready im) (j : Valve) (b d : Instant)
include ready

/-- A measurement in READY reads the working image, and changes one field of the valve and two of the
guard. -/
theorem State.measure_ready :
    s.measure j b d = { s with
      valves := s.valves.set j { s.valve j with lastGamma := some (gammaOf b d s.tracker.period) }
      guard := { s.guard with
        advance := advanceAfter s.guard.advance (gammaOf b d s.tracker.period) (Par.gmin im)
          (Par.advmax im) (Par.advdec im)
        lowest := some (min (gammaOf b d s.tracker.period)
          (s.guard.lowest.getD (gammaOf b d s.tracker.period))) } } := by
  have par (f : Image → Nat) : (s.modValve j fun v =>
      { v with lastGamma := some (gammaOf b d s.tracker.period) }).par f = f im :=
    State.par_ready ready f
  simp only [State.measure, par]
  rfl

theorem State.measure_advance_le (h : s.guard.advance ≤ Par.advmax im) :
    (s.measure j b d).guard.advance ≤ Par.advmax im := by
  rw [State.measure_ready ready]
  exact advanceAfter_le h

end

theorem State.measure_lowest_le {s : State} {j : Valve} {b d : Instant} {n : Nat}
    (h : (s.measure j b d).guard.lowest = some n) : n ≤ gammaOf b d s.tracker.period :=
  Option.some.inj h ▸ Nat.min_le_left ..

/-- Settles O32: γ short of GMIN raises the advance, any other γ lets it fall, and the lowest of the cycle is
the first γ or the lesser of the two. -/
theorem measurementAdjustsTheAdvance : Obligations.MeasurementAdjustsTheAdvance := by
  intro s j b d im ready gamma a
  refine ⟨?_, State.measure_advance_le ready j b d, fun n => State.measure_lowest_le⟩
  have margin : gammaOf b d s.tracker.period = gamma := gammaOf_eq ..
  have advance : advanceAfter a gamma (Par.gmin im) (Par.advmax im) (Par.advdec im)
      = if gamma < Par.gmin im then min (Par.advmax im) (a + (Par.gmin im - gamma))
        else max 0 (a - Par.advdec im) := by
    split
    case isTrue short => exact advanceAfter_of_short short ..
    case isFalse enough => rw [advanceAfter_of_enough enough, Nat.zero_max]
  rw [State.measure_ready ready, margin, advance, ← lowestAfter_eq]
  rfl

end Sys2Proof.Machine
end

section
/-! PROOF. The five deblock preconditions in their order, and the reason of the first that fails (R126). -/

namespace Sys2Proof.Machine

open Sys2Proof

/-! ## The first precondition that fails -/

/-- Valve `j` stands within its allowance (R126, precondition 5). -/
def State.withinAllowance (s : State) (j : Valve) : Prop :=
  (s.valve j).failed + (s.valve j).unproven ≤ s.par (Par.rv j)

section
variable {s : State}

theorem State.deblockFault_notReady (h : s.isReady = false) : s.deblockFault = some .notReady := by
  simp [State.deblockFault, h]

variable (ready : s.isReady = true)
include ready

theorem State.deblockFault_sync (h : s.tracker.sync ≠ .locked) : s.deblockFault = some .sync := by
  simp [State.deblockFault, ready, h]

variable (locked : s.tracker.sync = .locked)
include locked

theorem State.deblockFault_trip (h : s.group.trips ≠ {}) : s.deblockFault = some .trip := by
  have held : s.group.trips.isEmpty = false := by rwa [← Bool.not_eq_true, TripSet.isEmpty_iff]
  simp [State.deblockFault, ready, locked, held]

variable (free : s.group.trips = {})
include free

theorem State.deblockFault_channel (h : ∃ j, (s.valve j).channel.up = false) :
    s.deblockFault = some .channel := by
  have empty := TripSet.isEmpty_iff _ |>.2 free
  simp [State.deblockFault, ready, locked, empty, h]

variable (up : ∀ j, (s.valve j).channel.up = true)
include up

theorem State.deblockFault_valves : s.deblockFault = (allValves.find? fun j =>
    decide (s.par (Par.rv j) < (s.valve j).failed + (s.valve j).unproven)).map .readiness := by
  have empty := TripSet.isEmpty_iff _ |>.2 free
  simp [State.deblockFault, ready, locked, empty, up]

/-- The lowest valve beyond its allowance fails READINESS. -/
theorem State.deblockFault_readiness (j : Valve) : s.deblockFault = some (.readiness j) ↔
    ¬ s.withinAllowance j ∧ ∀ i, i < j → s.withinAllowance i := by
  rw [State.deblockFault_valves ready locked free up, allValves, ← Fin.find?_eq_find?_finRange]
  simp [State.withinAllowance]

theorem State.deblockFault_none : s.deblockFault = none ↔ ∀ j, s.withinAllowance j := by
  rw [State.deblockFault_valves ready locked free up]
  simp [State.withinAllowance]

/-- Past the other four preconditions READINESS alone can fail. -/
theorem State.deblockFault_ne {why : RefusalReason} (h : ∀ j, why ≠ .readiness j) :
    s.deblockFault ≠ some why := by
  rw [State.deblockFault_valves ready locked free up, Ne, Option.map_eq_some_iff]
  rintro ⟨j, -, e⟩
  exact h j e.symm

end

/-- Settles O33, precondition by precondition: where one fails it is the reason and every later clause is
false, and where it holds the next one is asked. -/
theorem deblockChecksInOrder : Obligations.DeblockChecksInOrder := by
  intro s within
  unfold State.fit State.blocksFit
  by_cases ready : s.isReady = true
  case neg =>
    rw [State.deblockFault_notReady (Bool.not_eq_true _ ▸ ready)]
    simp [ready]
  by_cases locked : s.tracker.sync = .locked
  case neg =>
    rw [State.deblockFault_sync ready locked]
    simp [ready, locked]
  by_cases free : s.group.trips = {}
  case neg =>
    rw [State.deblockFault_trip ready locked free]
    simp [ready, locked, free]
  by_cases up : ∀ j, (s.valve j).channel.up = true
  case neg =>
    have down : ∃ j, (s.valve j).channel.up = false := by simpa using up
    rw [State.deblockFault_channel ready locked free down]
    simp [ready, locked, free, up, down]
  have past {why : RefusalReason} (h : ∀ j, why ≠ .readiness j) :=
    State.deblockFault_ne ready locked free up h
  have none_iff := State.deblockFault_none ready locked free up
  have lowest := State.deblockFault_readiness ready locked free up
  simp only [State.withinAllowance] at none_iff lowest
  refine ⟨?_, ?_, ?_, ?_, ?_, fun j => ?_⟩
  · simp [none_iff, ready, locked, free, up]
  · simp [past (why := .notReady) nofun, ready]
  · simp [past (why := .sync) nofun, locked]
  · simp [past (why := .trip) nofun, free]
  · simp [past (why := .channel) nofun, up]
  · simp [lowest j, within, ready, locked, free, up]

/-- A deblock has no fault exactly with the five preconditions holding. -/
theorem State.deblockFault_none_iff (s : State) : s.deblockFault = none ↔ s.fit :=
  (deblockChecksInOrder s).1

end Sys2Proof.Machine
end

section
/-! PROOF. Requested modes and the clear-trip flag as an ORDER frame brings them to the controller (R124 to
R126, R131, R139, R148 to R150). -/

namespace Sys2Proof.Machine

open Sys2Proof

/-! ## The clear-trip flag (R139) -/

theorem State.clearTrips_idle {s : State} (h : s.group.mode ≠ .blocked) : s.clearTrips = s := if_neg h

/-- The causes whose condition still holds: of the five, three have one that can. -/
def State.standingTrips (s : State) : TripSet where
  redundancy := s.group.trips.redundancy && allValves.any fun j => (s.valve j).monitor.margin == .exhausted
  channel := s.group.trips.channel && allValves.any fun j => !(s.valve j).channel.up
  syncLost := s.group.trips.syncLost && s.tracker.sync == .lost

theorem State.clearTrips_blocked {s : State} (h : s.group.mode = .blocked) :
    s.clearTrips = { s with group := { s.group with trips := s.standingTrips } } := if_pos h

/-- Settles O38, cause by cause of the set that a clearing leaves. -/
theorem clearTripJudgesEachCause : Obligations.ClearTripJudgesEachCause := by
  intro s
  refine ⟨State.clearTrips_idle, fun blocked => ?_⟩
  rw [State.clearTrips_blocked blocked]
  refine ⟨rfl, ?_, ?_, ?_, rfl, rfl⟩
  · simp [State.standingTrips]
  · simp [State.standingTrips]
  · simp [State.standingTrips]

/-! ## A requested mode (R124, R125) -/

theorem State.enterBlocked_eq (s : State) : s.enterBlocked = ({ s with
    valves := s.leaveMode.valves
    group := { s.group with
      mode := .blocked, origin := none, lastUpperY := none, lastUpperD := none, legs := none
      gatingExpiry := none }
    guard := { s.guard with advance := 0 } } : State).post .mode modeBlocked := by
  unfold State.enterBlocked
  rw [State.leaveMode_eq]

theorem State.requestRun_fit {s : State} (h : s.fit) (o : Origin) :
    s.requestRun o = s.enterDeblocking o := by
  rw [State.requestRun, s.deblockFault_none_iff.2 h]

theorem State.requestRun_refused {s : State} {why : RefusalReason} (h : s.deblockFault = some why)
    (o : Origin) : s.requestRun o = s.refuse why := by
  rw [State.requestRun, h]

/-- Outside READY the group is held at BLOCKED (R125). -/
theorem State.judgeRequest_unready {s : State} (h : s.isReady = false) (r : Requested) :
    s.judgeRequest r = if r = .block then s else s.refuse .notReady := by
  cases r <;> simp [State.judgeRequest, h]

section
variable {s : State} (ready : s.isReady = true)
include ready

theorem State.judgeRequest_block : s.judgeRequest .block
    = if s.group.mode = .blocked then s else s.enterBlocked := by
  rcases mode : s.group.mode <;> simp [State.judgeRequest, ready, mode]

theorem State.judgeRequest_bypass : s.judgeRequest .bypass
    = if s.group.mode = .bypass then s else s.enterBypass := by
  rcases mode : s.group.mode <;> simp [State.judgeRequest, ready, mode]

theorem State.judgeRequest_run_deblocked (h : s.group.mode = .deblocking ∨ s.group.mode = .running) :
    s.judgeRequest .run = s := by
  rcases h with mode | mode <;> simp [State.judgeRequest, ready, mode]

theorem State.judgeRequest_run_blocked (h : s.group.mode = .blocked) :
    s.judgeRequest .run = s.requestRun .fromBlocked := by
  simp [State.judgeRequest, ready, h]

theorem State.judgeRequest_run_bypass (h : s.group.mode = .bypass) :
    s.judgeRequest .run = s.requestRun .fromBypass := by
  simp [State.judgeRequest, ready, h]

end

/-- Settles O34, row by row of the table of R124. -/
theorem requestedModeIsJudged : Obligations.RequestedModeIsJudged := by
  intro s blocked refused deblocking
  have entered : s.enterBlocked = blocked.post .mode modeBlocked := by
    rw [State.enterBlocked_eq, State.leaveMode_valves]
  refine ⟨fun unready => ⟨?_, ?_, ?_⟩, fun ready => ⟨fun mode => ?_, fun mode => ?_, fun mode => ?_,
    fun mode => ?_, State.judgeRequest_run_deblocked ready, fun mode fit => ?_, fun mode fit => ?_,
    fun why mode fault => ?_⟩⟩
  · exact State.judgeRequest_unready unready .block
  · exact State.judgeRequest_unready unready .run
  · exact State.judgeRequest_unready unready .bypass
  · rw [State.judgeRequest_block ready, if_pos mode]
  · rw [State.judgeRequest_block ready, if_neg mode, entered]
  · rw [State.judgeRequest_bypass ready, if_pos mode]
  · rw [State.judgeRequest_bypass ready, if_neg mode]
  · rw [State.judgeRequest_run_blocked ready mode, State.requestRun_fit fit]
    rfl
  · rw [State.judgeRequest_run_bypass ready mode, State.requestRun_fit fit]
    rfl
  · rcases mode with mode | mode
    · rw [State.judgeRequest_run_blocked ready mode, State.requestRun_refused fault]
      rfl
    · rw [State.judgeRequest_run_bypass ready mode, State.requestRun_refused fault]
      rfl

/-! ## An ORDER frame (R148 to R150) -/

theorem requestedOf_eq (m : BitVec 2) :
    requestedOf m = if m = 1 then .run else if m = 2 then .bypass else .block := by
  revert m; decide

/-- The active order replaced, and the no-action limit started anew (R148). -/
def State.ordered (f : OrderFrame) (s : State) : State :=
  { s with
    order := { alpha := f.alpha, requested := requestedOf f.mode }
    lastTaken := some s.timebase, limitPassed := false }

/-- The controller takes the clear-trip flag and then the requested mode (R124). -/
theorem State.takeOrder_eq (s : State) (f : OrderFrame) : s.takeOrder f
    = ((if f.clearTrip then (s.ordered f).clearTrips else s.ordered f).judgeRequest
        (requestedOf f.mode)).settle := rfl

/-- A valid ORDER frame is served as its arrival leaves the links. -/
theorem exec_orderFrame {s : State} {t : Instant} {f : OrderFrame} (live : s.live)
    (intact : orderIntact f) (addressed : s.addressed f.address) (mode : f.mode ≠ 3) (l : Link) :
    exec (.orderFrame t l f) s = .next ((s.heard t l f.role).serveOrder l f) :=
  State.atTick_receive live
    ((checkFrame_orderBytes _ f).2 ⟨intact, (s.addressPasses_iff ..).2 addressed, mode⟩)

/-- Settles O43: a frame is taken or not by the two conditions of R148, and answered either way. -/
theorem validOrderIsTakenOnTheSelectedLink : Obligations.ValidOrderIsTakenOnTheSelectedLink := by
  intro s t l f live intact addressed mode s1 requested s2
  rw [exec_orderFrame live intact addressed mode, State.serveOrder]
  refine ⟨fun role sel => ?_, fun refused => ?_⟩
  · have ordered : s1.ordered f = s2 := by
      simp [State.ordered, requestedOf_eq, s2, s1, requested]
    rw [if_pos ⟨role, sel⟩, State.takeOrder_eq, ordered, requestedOf_eq]
  · rw [if_neg]
    rintro ⟨role, sel⟩
    rcases refused with standby | other
    · rw [role] at standby
      cases standby
    · exact other sel

end Sys2Proof.Machine
end

section
/-! PROOF. The recheck of DEBLOCKING at a reference, and what the deblock preconditions read (R126, R128). -/

namespace Sys2Proof.Machine

open Sys2Proof

/-! ## What the preconditions read -/

/-- Preconditions 1, 2, 4 and 5 of R126 read the same of both states. -/
structure BlocksAlike (s u : State) : Prop where
  unit : u.unit = s.unit
  sync : u.tracker.sync = s.tracker.sync
  up : ∀ j, (u.valve j).channel.up = (s.valve j).channel.up
  tally : ∀ j, (u.valve j).monitor.tally = (s.valve j).monitor.tally

namespace BlocksAlike
variable {s u : State}

theorem of_valves (unit : u.unit = s.unit) (tracker : u.tracker = s.tracker)
    (valves : ∀ j, u.valve j = s.valve j) : BlocksAlike s u :=
  ⟨unit, by rw [tracker], fun j => by rw [valves], fun j => by rw [valves]⟩

theorem isReady (h : BlocksAlike s u) : u.isReady = s.isReady := by
  rw [State.isReady, State.working, h.unit]
  rfl

theorem withinAllowance (h : BlocksAlike s u) (j : Valve) :
    u.withinAllowance j ↔ s.withinAllowance j := by
  simp only [State.withinAllowance, ValveRecord.failed, ValveRecord.unproven, h.tally,
    State.par_eq_of_unit h.unit]

theorem blocksFit (h : BlocksAlike s u) : u.blocksFit ↔ s.blocksFit := by
  have within := forall_congr' h.withinAllowance
  simp only [State.withinAllowance] at within
  simp only [State.blocksFit, h.sync, h.up, within]

theorem fit (h : BlocksAlike s u) (trips : u.group.trips = s.group.trips) : u.fit ↔ s.fit := by
  simp only [State.fit, h.isReady, trips, h.blocksFit]

theorem deblockFault (h : BlocksAlike s u) (trips : u.group.trips = s.group.trips) :
    u.deblockFault = s.deblockFault := by
  simp only [State.deblockFault, h.isReady, h.sync, trips, h.up, ValveRecord.failed,
    ValveRecord.unproven, h.tally, State.par_eq_of_unit h.unit]
  rfl

end BlocksAlike

/-! ## The recheck (R128) -/

theorem State.recheck_idle {s : State} (h : s.group.mode ≠ .deblocking) : s.recheck = s := if_neg h

section
variable {s : State} (mode : s.group.mode = .deblocking)
include mode

theorem State.recheck_runs (h : s.fit) : s.recheck = s.enterRunning := by
  rw [State.recheck, if_pos mode, s.deblockFault_none_iff.2 h]

theorem State.recheck_blocks {why : RefusalReason} (h : s.deblockFault = some why) :
    s.recheck = s.enterBlocked.refuse why := by
  rw [State.recheck, if_pos mode, h]

/-- With no cause handed the recheck is all. -/
theorem State.recheckAndSettle_quiet (h : s.handed = []) : s.recheckAndSettle = s.recheck := by
  rw [State.recheckAndSettle, if_pos mode, h]
  rfl

/-- Beside a cause handed the choice picks the order (assumption 5). -/
theorem State.recheckAndSettle_ordered (h : s.handed ≠ []) : s.recheckAndSettle
    = if s.choices.headD 0 % 2 = 0 then { s with choices := s.choices.tail }.settle.recheck
      else { s with choices := s.choices.tail }.recheck.settle := by
  rw [State.recheckAndSettle, if_pos mode, if_neg (by simpa using h), ← State.choose_fst,
    ← State.choose_eq]

end

/-- A recheck enters RUNNING with the preconditions holding, or BLOCKED, or finds another mode. -/
theorem State.recheck_cases (s : State) :
    (s.group.mode = .deblocking ∧ s.fit ∧ s.recheck = s.enterRunning)
      ∨ (s.group.mode = .deblocking
        ∧ ∃ why, s.deblockFault = some why ∧ s.recheck = s.enterBlocked.refuse why)
      ∨ (s.group.mode ≠ .deblocking ∧ s.recheck = s) := by
  by_cases mode : s.group.mode = .deblocking
  case neg => exact .inr (.inr ⟨mode, State.recheck_idle mode⟩)
  rcases fault : s.deblockFault with _ | why
  · have fit := s.deblockFault_none_iff.1 fault
    exact .inl ⟨mode, fit, State.recheck_runs mode fit⟩
  · exact .inr (.inl ⟨mode, why, rfl, State.recheck_blocks mode fault⟩)

end Sys2Proof.Machine
end

section
/-! PROOF. The operations that enter neither DEBLOCKING nor RUNNING: messages, reports, firings, trips,
replies, requests and starts (R123, R124, R137). -/

namespace Sys2Proof.Machine

open Sys2Proof

/-- Neither RUNNING nor DEBLOCKING is entered. -/
structure NoDeblock (s u : State) : Prop where
  running : u.group.mode = .running → s.group.mode = .running
  deblocking : u.group.mode = .deblocking → s.group.mode = .deblocking

namespace NoDeblock
variable {s u w : State}

theorem of_mode (h : u.group.mode = s.group.mode) : NoDeblock s u := ⟨h ▸ id, h ▸ id⟩

theorem of_group (h : u.group = s.group) : NoDeblock s u := .of_mode (congrArg Group.mode h)

theorem refl (s : State) : NoDeblock s s := of_group rfl

theorem trans (h : NoDeblock s u) (h' : NoDeblock u w) : NoDeblock s w :=
  ⟨h.running ∘ h'.running, h.deblocking ∘ h'.deblocking⟩

theorem of_blocked (h : u.group.mode = .blocked) : NoDeblock s u :=
  ⟨fun e => (nomatch h.symm.trans e), fun e => (nomatch h.symm.trans e)⟩

theorem of_bypass (h : u.group.mode = .bypass) : NoDeblock s u :=
  ⟨fun e => (nomatch h.symm.trans e), fun e => (nomatch h.symm.trans e)⟩

theorem foldl {α : Type} {f : State → α → State} (hf : ∀ s a, NoDeblock s (f s a)) (as : List α)
    (s : State) : NoDeblock s (as.foldl f s) := by
  induction as generalizing s with
  | nil => exact refl s
  | cons a as ih => exact (hf s a).trans (ih _)

end NoDeblock

/-! ## Modes and trips -/

theorem State.enterBlocked_noDeblock (s : State) : NoDeblock s s.enterBlocked := .of_blocked rfl

theorem State.enterBypass_mode (s : State) : s.enterBypass.group.mode = .bypass := by
  rw [s.enterBypass_group]

theorem State.addTrip_mode (s : State) (c : TripCause) :
    (s.addTrip c).group.mode = s.group.mode := by
  rw [(s.addTrip_added c).eq]

/-- The action on a cause leads out of the deblocked modes, or nowhere (R137). -/
theorem State.actOnTrip_noDeblock (s : State) (c : TripCause) : NoDeblock s (s.actOnTrip c) := by
  rcases mode : s.group.mode
  case blocked => rw [State.actOnTrip_idle c (.inl mode)]; exact .refl s
  case bypass => rw [State.actOnTrip_idle c (.inr mode)]; exact .refl s
  case deblocking => rw [State.actOnTrip_deblocking c mode]; exact .of_blocked rfl
  case running =>
    rw [State.actOnTrip_running c mode]
    split
    · exact .of_bypass s.enterBypass_mode
    · exact .refl s

theorem State.latch_noDeblock (s : State) (c : TripCause) : NoDeblock s (s.latch c) := by
  have added : NoDeblock s (s.addTrip c) := .of_mode (s.addTrip_mode c)
  unfold State.latch
  split
  · exact .refl s
  · split
    · exact added
    · exact added.trans (State.actOnTrip_noDeblock ..)

theorem State.settle_noDeblock (s : State) : NoDeblock s s.settle :=
  .trans (.of_group rfl : NoDeblock s { s with handed := [] })
    (.foldl State.latch_noDeblock s.handed _)

/-! ## Firings -/

theorem State.closeInterval_group (s : State) (j : Valve) : (s.closeInterval j).group = s.group := by
  obtain ⟨-, -, group, -⟩ := s.closeInterval_frame j
  exact group

theorem State.fireLegs_mode (s : State) : s.fireLegs.group.mode = s.group.mode := by
  have fold (js : List Valve) (w : State) :
      (js.foldl (fun w j => w.fire .bypass j) w).group.mode = w.group.mode := by
    induction js generalizing w with
    | nil => rfl
    | cons j js ih => exact (ih _).trans (w.fire_mode .bypass j)
  rcases h : s.group.legs with _ | l
  · unfold State.fireLegs
    rw [h]
  · rw [State.fireLegs_some h]
    exact fold _ _

theorem State.takenUp_mode (s : State) (j : Valve) :
    (if s.group.mode = .running then (s.pullIn j).scheduleFiring j
      else s.closeAtTakeUp j).group.mode = s.group.mode := by
  split
  · exact s.pullIn_mode j
  · unfold State.closeAtTakeUp
    split
    · rw [s.closeInterval_group]
    · rfl

theorem State.checkReadiness_mode (s : State) (j : Valve) (f : Instant) :
    (s.checkReadiness j f).group.mode = s.group.mode := by
  unfold State.checkReadiness
  simp only
  split
  · rfl
  · exact s.issue_mode ..

/-! ## Messages and reports -/

theorem State.applyAnswer_group (s : State) (j : Valve) (p : Nat) (a : Answer) :
    (s.applyAnswer j p a).group = s.group := by
  unfold State.applyAnswer
  simp only
  split
  · exact (State.levelChange_frame _ j _).group
  · rfl

theorem State.quorumReached_mode (s : State) (j : Valve) (b : Instant) :
    (s.quorumReached j b).group.mode = s.group.mode := by
  unfold State.quorumReached State.blockBack
  simp only
  split
  · split <;> rfl
  · split
    · split <;> rfl
    · split
      · exact s.issue_mode .late j
      · rfl

theorem State.actOnIndication_mode (s : State) (j : Valve) (m : Mark) (a : Answer) (b : Instant) :
    (s.actOnIndication j m a b).group.mode = s.group.mode := by
  unfold State.actOnIndication
  split
  · split
    · exact s.quorumReached_mode j b
    · rfl
  · split
    · exact s.fire_mode .refire j
    · rfl

theorem State.takeReport_mode (s : State) (j : Valve) (p : Nat) (cls : ReportClass) (b : Instant) :
    (s.takeReport j p cls b).group.mode = s.group.mode := by
  have answered (a : Answer) : (s.applyAnswer j p a).group.mode = s.group.mode :=
    congrArg Group.mode (s.applyAnswer_group j p a)
  unfold State.takeReport
  simp only
  split
  · rfl
  · split
    · exact (State.fireProtective_mode _ j).trans (answered _)
    · split
      · exact (State.actOnIndication_mode ..).trans (answered _)
      · exact answered _

theorem State.messageArrives_noDeblock (s : State) (j : Valve) (m : Option Inbound) :
    NoDeblock s (s.messageArrives j m) := by
  obtain ⟨-, group, -⟩ := s.superviseMessage_frame j
  have supervised : NoDeblock s (s.superviseMessage j) := .of_group group
  have taken (cls : ReportClass) (r : PulseReport) :
      NoDeblock s ((s.superviseMessage j).takeReport j r.position cls r.stamp).settle :=
    (supervised.trans (.of_mode (State.takeReport_mode ..))).trans (State.settle_noDeblock _)
  unfold State.messageArrives State.takePulseReport
  split
  · exact .refl s
  · split
    · exact .of_group rfl
    · exact supervised
    · split
      · rw [State.countNoise_eq]
        refine supervised.trans (.of_group ?_)
        simp only
        split <;> rfl
      · exact taken .ind _
      · exact taken .pfi _
      · exact taken .lft _

/-! ## Frames, replies and requests -/

theorem State.judgeSilence_group (s : State) (l : Link) : (s.judgeSilence l).group = s.group := by
  rw [s.judgeSilence_frame]

theorem State.replyStatus_group (s : State) (l : Link) (a : BitVec 6) :
    (s.replyStatus l a).group = s.group := by
  obtain ⟨f, reply⟩ := s.replyStatus_frame l a
  rw [reply, State.modLink_group]

theorem State.replyService_noDeblock (s : State) (l : Link) (a : BitVec 6) (code : BitVec 4)
    (result : ServiceResult) (data : List Byte) :
    NoDeblock s (s.replyService l a code result data) := by
  obtain ⟨f, reply⟩ := s.replyService_frame l a code result data
  rw [reply]
  exact .of_group (s.modLink_group l f)

theorem State.change_noDeblock (s : State) (l : Link) (h : ServiceHead) (code : BitVec 4)
    {run : State → State × ServiceResult × List Byte} (hr : NoDeblock s (run s).1) :
    NoDeblock s (s.change l h code run) := by
  unfold State.change
  split
  · exact hr.trans (State.replyService_noDeblock ..)
  · exact s.replyService_noDeblock ..

/-- A record replaced and its change handed on leave the group to the causes handed (R60, R76, R78). -/
theorem State.handChange_noDeblock {s w : State} (group : w.group = s.group) (v : Valve)
    (old new : LevelState) : NoDeblock s (w.handChange v old new).settle :=
  .trans (.of_group ((w.handChange_frame v old new).group.trans group)) (State.settle_noDeblock _)

theorem State.retireRequest_noDeblock (s : State) (k : Link) (j p : Byte) :
    NoDeblock s (s.retireRequest k j p).1 := by
  have retired (v : Valve) (p : Nat) : NoDeblock s (s.retireLevel k v p) := by
    unfold State.retireLevel
    refine State.handChange_noDeblock ?_ ..
    split <;> rfl
  unfold State.retireRequest
  split
  · exact .refl s
  · split
    · exact .refl s
    · split
      · exact .refl s
      · exact retired ..

theorem State.restoreRequest_noDeblock (s : State) (j p : Byte) :
    NoDeblock s (s.restoreRequest j p).1 := by
  have restored (v : Valve) (p : Nat) : NoDeblock s (s.restoreLevel v p) := by
    refine State.handChange_noDeblock (w := s.stampLevel v p ((s.valve v).level p).restore) ?_ ..
    rfl
  unfold State.restoreRequest
  split
  · exact .refl s
  · split
    · exact .refl s
    · split
      · exact restored ..
      · exact .refl s

theorem State.clearCountsRequest_group (s : State) (j p : Byte) :
    (s.clearCountsRequest j p).1.group = s.group := by
  unfold State.clearCountsRequest
  split
  · rfl
  · split <;> rfl

theorem State.configWriteRequest_group (s : State) (a n : Byte) (data : Vector Word16 8) :
    (s.configWriteRequest a n data).1.group = s.group := by
  unfold State.configWriteRequest
  split
  · rfl
  · split <;> rfl

theorem State.configStoreRequest_group (s : State) : s.configStoreRequest.1.group = s.group := by
  unfold State.configStoreRequest
  split
  · rfl
  · split
    · rfl
    · split <;> rfl

/-- An APPLY leaves the group at its values of R141. -/
theorem State.applyStaging_group (s : State) : s.applyStaging.group = {} := by
  unfold State.applyStaging
  simp only [State.post_group]
  split
  · rfl
  · rw [State.beginService_frame]

theorem State.configApplyRequest_noDeblock (s : State) : NoDeblock s s.configApplyRequest.1 := by
  rcases s.configApplyRequest_cases with e | ⟨-, -, e⟩
  · rw [e]; exact .refl s
  · rw [e]; exact .of_blocked (by rw [s.applyStaging_group])

theorem State.serveReset_noDeblock (s : State) (l : Link) (h : ServiceHead) :
    NoDeblock s (s.serveReset l h) := by
  unfold State.serveReset
  split
  · split
    · exact s.replyService_noDeblock ..
    · exact .of_blocked rfl
  · exact s.replyService_noDeblock ..

theorem State.serveRequest_noDeblock (s : State) (l : Link) (h : ServiceHead) (r : Request) :
    NoDeblock s (s.serveRequest l h r) := by
  have moved (c : Cursor) : NoDeblock s (s.setCursor l c) := .of_group (s.modLink_group ..)
  cases r with
  | lookUpLevel j p => exact s.replyService_noDeblock ..
  | lookUpValve j => exact s.replyService_noDeblock ..
  | seek j p =>
    unfold State.serveRequest State.serveSeek
    simp only
    split
    · exact s.replyService_noDeblock ..
    · exact (moved _).trans (State.replyService_noDeblock ..)
  | walk since =>
    unfold State.serveRequest State.serveWalk
    simp only
    split
    · exact (moved _).trans (State.replyService_noDeblock ..)
    · exact s.replyService_noDeblock ..
  | retire j p => exact s.change_noDeblock l h _ (s.retireRequest_noDeblock l j p)
  | restore j p => exact s.change_noDeblock l h _ (s.restoreRequest_noDeblock j p)
  | clearCounts j p => exact s.change_noDeblock l h _ (.of_group (s.clearCountsRequest_group j p))
  | configRead a n => exact s.replyService_noDeblock ..
  | configWrite a n data =>
    exact s.change_noDeblock l h _ (run := fun s =>
      ((s.configWriteRequest a n data).1, (s.configWriteRequest a n data).2, []))
      (.of_group (s.configWriteRequest_group a n data))
  | configApply =>
    exact s.change_noDeblock l h _ (run := fun s =>
      (s.configApplyRequest.1, s.configApplyRequest.2, [])) s.configApplyRequest_noDeblock
  | configStore =>
    exact s.change_noDeblock l h _ (run := fun s =>
      (s.configStoreRequest.1, s.configStoreRequest.2, [])) (.of_group s.configStoreRequest_group)
  | reset => exact s.serveReset_noDeblock l h

/-! ## Starts -/

theorem State.enterReady_group (s : State) (im : Image) : (s.enterReady im).group = s.group := by
  unfold State.enterReady
  rw [State.beginService_frame, State.startBlocks_frame]

end Sys2Proof.Machine
end

section
/-! PROOF. RUNNING is entered by the recheck of a reference alone, and DEBLOCKING by an ORDER frame alone, both
with the deblock preconditions holding (R123, R124, R126, R128, R137). -/

namespace Sys2Proof.Machine

open Sys2Proof

/-! ## The entries to the deblocked modes -/

/-- What an operation can do to the mode: enter neither DEBLOCKING nor RUNNING, enter RUNNING from a
DEBLOCKING that held no cause, or enter DEBLOCKING under an order to RUN. -/
inductive DeblockStep (s u : State) : Prop
  | kept (h : NoDeblock s u)
  | runs (mode : u.group.mode = .running) (origin : s.group.mode = .deblocking)
      (free : s.group.trips = {}) (ready : u.isReady = true) (fit : u.blocksFit)
  | deblocks (mode : u.group.mode = .deblocking)
      (origin : s.group.mode = .blocked ∨ s.group.mode = .bypass)
      (fit : u.fit) (requested : u.order.requested = .run)

namespace DeblockStep
variable {s s' u u' : State}

/-- The state before may differ in all but the group. -/
theorem of_before (h : DeblockStep s' u) (group : s'.group = s.group) : DeblockStep s u := by
  cases h with
  | kept h => exact .kept (.trans (.of_group group) h)
  | runs mode origin free ready fit => exact .runs mode (group ▸ origin) (group ▸ free) ready fit
  | deblocks mode origin fit requested => exact .deblocks mode (group ▸ origin) fit requested

/-- The state after may differ in all that the preconditions, the group and the order do not read. -/
theorem of_after (h : DeblockStep s u) (blocks : BlocksAlike u u') (group : u'.group = u.group)
    (order : u'.order = u.order) : DeblockStep s u' := by
  cases h with
  | kept h => exact .kept (h.trans (.of_group group))
  | runs mode origin free ready fit =>
    exact .runs (group ▸ mode) origin free (blocks.isReady.trans ready) (blocks.blocksFit.2 fit)
  | deblocks mode origin fit requested =>
    exact .deblocks (group ▸ mode) origin ((blocks.fit (by rw [group])).2 fit) (order ▸ requested)

end DeblockStep

/-! ## The recheck beside the causes of a reference (R128, R137, R138) -/

theorem TripSet.eq_empty_iff (t : TripSet) : t = {} ↔ ∀ c, t.has c = false := by
  constructor
  · rintro rfl c
    cases c <;> rfl
  · intro h
    have redundancy := h .redundancy
    have channel := h .channel
    have syncLost := h .syncLost
    have persistentCf := h .persistentCf
    have controlLoss := h .controlLoss
    simp only [TripSet.has] at *
    cases t
    simp_all

/-- Where no cause is held after causes were taken, none was held before. -/
theorem State.settle_free {s : State} (h : s.settle.group.trips = {}) : s.group.trips = {} := by
  rw [TripSet.eq_empty_iff] at h ⊢
  intro c
  by_contra held
  have still := s.settle_modeFrame.trips c (Bool.not_eq_false _ ▸ held)
  rw [h c] at still
  cases still

theorem State.enterRunning_alike (s : State) : BlocksAlike s s.enterRunning :=
  .of_valves rfl rfl fun _ => rfl

/-- While the causes taken leave the group in RUNNING, no precondition on the blocks moves. -/
theorem State.settle_alike {s : State} (h : s.settle.group.mode = .running) :
    BlocksAlike s s.settle :=
  .of_valves s.settle_rest.unit s.settle_modeFrame.tracker (s.settle_settled.running h).2

/-- The recheck runs on the preconditions as it finds them. -/
theorem State.recheck_step {s : State} (mode : s.group.mode = .deblocking) : DeblockStep s s.recheck := by
  rcases s.recheck_cases with ⟨-, ⟨ready, free, fit⟩, e⟩ | ⟨-, why, -, e⟩ | ⟨other, -⟩
  · rw [e]
    exact .runs rfl mode free (s.enterRunning_alike.isReady.trans ready)
      (s.enterRunning_alike.blocksFit.2 fit)
  · rw [e]
    exact .kept (.of_blocked rfl)
  · exact absurd mode other

/-- Causes taken first leave the recheck a DEBLOCKING without causes, or none at all. -/
theorem State.settle_recheck_step {s : State} (mode : s.group.mode = .deblocking) :
    DeblockStep s s.settle.recheck := by
  by_cases still : s.settle.group.mode = .deblocking
  case neg => rw [State.recheck_idle still]; exact .kept s.settle_noDeblock
  cases State.recheck_step still with
  | kept h => exact .kept (s.settle_noDeblock.trans h)
  | runs running _ free ready fit => exact .runs running mode (State.settle_free free) ready fit
  | deblocks running origin => rcases origin with e | e <;> cases still.symm.trans e

/-- Causes taken after the recheck leave RUNNING as it found it, or lead out of it. -/
theorem State.recheck_settle_step {s : State} (mode : s.group.mode = .deblocking) :
    DeblockStep s s.recheck.settle := by
  have left := s.recheck.settle_noDeblock
  cases State.recheck_step mode with
  | kept h => exact .kept (h.trans left)
  | runs running _ free ready fit =>
    by_cases still : s.recheck.settle.group.mode = .running
    · have alike := State.settle_alike still
      exact .runs still mode free (alike.isReady.trans ready) (alike.blocksFit.2 fit)
    · exact .kept ⟨fun e => absurd e still, fun e => nomatch running.symm.trans (left.deblocking e)⟩
  | deblocks _ origin => rcases origin with e | e <;> cases mode.symm.trans e

theorem State.recheckAndSettle_step (s : State) : DeblockStep s s.recheckAndSettle := by
  by_cases mode : s.group.mode = .deblocking
  case neg => rw [State.recheckAndSettle, if_neg mode]; exact .kept s.settle_noDeblock
  by_cases quiet : s.handed = []
  · rw [State.recheckAndSettle_quiet mode quiet]
    exact State.recheck_step mode
  · rw [State.recheckAndSettle_ordered mode quiet]
    split
    · exact .of_before (State.settle_recheck_step mode) rfl
    · exact .of_before (State.recheck_settle_step mode) rfl

theorem State.handReference_step (s : State) (im : Image) (tref : Instant) :
    DeblockStep s (s.handReference im tref) := by
  rw [State.handReference_eq]
  exact .of_before (State.recheckAndSettle_step _) (s.referenceTaken_group im tref)

theorem State.judgeCrossing_step (s : State) (im : Image) (t0 : Instant) :
    DeblockStep s (s.judgeCrossing im t0) := by
  have refers (p : Nat) (f : Tracker → Tracker) : DeblockStep s (s.referAt im t0 p f) :=
    .of_before (State.handReference_step ..) rfl
  have locks (p : Nat) : DeblockStep s (s.lockAt im t0 p) :=
    .of_before (State.handReference_step ..) rfl
  have discards : DeblockStep s s.discardCrossing := .kept (.of_group rfl)
  unfold State.judgeCrossing
  simp only
  split
  · split
    · split
      · exact refers ..
      all_goals
        split
        · exact locks _
        · exact refers ..
    · split
      · exact discards
      · exact discards
      · exact refers ..
      · exact refers ..
  · split
    · exact discards
    · exact discards
    · exact refers ..
    · exact refers ..

theorem State.synthetic_group (s : State) (im : Image) (z : Instant) :
    (s.synthetic im z).group = s.group := by
  unfold State.synthetic
  simp only
  split
  · rfl
  · rfl
  · split <;> rfl
  · rfl

/-! ## The order to RUN (R124, R126) -/

/-- A requested mode enters neither deblocked mode, or it is RUN and the five preconditions hold. -/
theorem State.judgeRequest_cases (s : State) (r : Requested) : NoDeblock s (s.judgeRequest r)
    ∨ (r = .run ∧ s.fit ∧ (s.group.mode = .blocked ∨ s.group.mode = .bypass)
      ∧ ∃ o, s.judgeRequest r = s.enterDeblocking o) := by
  have refused (why : RefusalReason) : NoDeblock s (s.refuse why) := .of_mode rfl
  have requested (o : Origin) : NoDeblock s (s.requestRun o)
      ∨ (s.fit ∧ s.requestRun o = s.enterDeblocking o) := by
    rcases fault : s.deblockFault with _ | why
    · have fit := s.deblockFault_none_iff.1 fault
      exact .inr ⟨fit, State.requestRun_fit fit o⟩
    · rw [State.requestRun_refused fault]
      exact .inl (refused why)
  by_cases ready : s.isReady = true
  case neg =>
    rw [State.judgeRequest_unready (Bool.not_eq_true _ ▸ ready)]
    split
    · exact .inl (.refl s)
    · exact .inl (refused .notReady)
  cases r with
  | block =>
    rw [State.judgeRequest_block ready]
    split
    · exact .inl (.refl s)
    · exact .inl s.enterBlocked_noDeblock
  | bypass =>
    rw [State.judgeRequest_bypass ready]
    split
    · exact .inl (.refl s)
    · exact .inl (.of_bypass s.enterBypass_mode)
  | run =>
    rcases mode : s.group.mode
    case blocked =>
      rw [State.judgeRequest_run_blocked ready mode]
      exact (requested .fromBlocked).imp_right fun ⟨fit, e⟩ => ⟨rfl, fit, .inl rfl, _, e⟩
    case bypass =>
      rw [State.judgeRequest_run_bypass ready mode]
      exact (requested .fromBypass).imp_right fun ⟨fit, e⟩ => ⟨rfl, fit, .inr rfl, _, e⟩
    case deblocking => rw [State.judgeRequest_run_deblocked ready (.inl mode)]; exact .inl (.refl s)
    case running => rw [State.judgeRequest_run_deblocked ready (.inr mode)]; exact .inl (.refl s)

theorem State.clearTrips_only (s : State) :
    s.clearTrips = { s with group := { s.group with trips := s.clearTrips.group.trips } } := by
  unfold State.clearTrips
  split <;> rfl

/-- An order taken with no cause handed enters DEBLOCKING under that order alone. -/
theorem State.takeOrder_step {s : State} (quiet : s.handed = []) (f : OrderFrame) :
    DeblockStep s (s.takeOrder f) := by
  rw [State.takeOrder_eq]
  obtain ⟨w, cleared, mode, order, handed⟩ : ∃ w : State,
      (if f.clearTrip then (s.ordered f).clearTrips else s.ordered f) = w
        ∧ w.group.mode = s.group.mode ∧ w.order.requested = requestedOf f.mode ∧ w.handed = [] := by
    refine ⟨_, rfl, ?_⟩
    split
    · rw [State.clearTrips_only]
      exact ⟨rfl, rfl, quiet⟩
    · exact ⟨rfl, rfl, quiet⟩
  rw [cleared]
  rcases w.judgeRequest_cases (requestedOf f.mode) with h | ⟨run, fit, origin, o, e⟩
  · exact .kept ((NoDeblock.of_mode mode).trans (h.trans (State.settle_noDeblock _)))
  · rw [e, State.settle_nil (show (w.enterDeblocking o).handed = [] from handed)]
    have alike : BlocksAlike w (w.enterDeblocking o) := .of_valves rfl rfl fun _ => rfl
    exact .deblocks rfl (mode ▸ origin) ((alike.fit rfl).2 fit) (order.trans run)

theorem State.serveOrder_step {s : State} (quiet : s.handed = []) (l : Link) (f : OrderFrame) :
    DeblockStep s (s.serveOrder l f) := by
  have reply (w : State) : BlocksAlike w (w.replyStatus l f.address)
      ∧ (w.replyStatus l f.address).order = w.order := by
    obtain ⟨g, e⟩ := w.replyStatus_frame l f.address
    rw [e]
    exact ⟨.of_valves (by simp) (by simp) (by simp), by simp⟩
  have served (w : State) (h : DeblockStep s w) : DeblockStep s (w.replyStatus l f.address) :=
    h.of_after (reply w).1 (w.replyStatus_group l f.address) (reply w).2
  unfold State.serveOrder
  split
  · exact served _ (State.takeOrder_step quiet f)
  · exact served _ (.kept (.refl s))

/-- A frame that arrives enters a deblocked mode only as it is served. -/
theorem State.receive_step {serve : State → State}
    (hs : ∀ w, w.handed = [] → DeblockStep w (serve w)) {s : State} (quiet : s.handed = [])
    (l : Link) (bytes : List Byte) (r : Role) : DeblockStep s (s.receive l bytes r serve) := by
  unfold State.receive State.errorFrame State.foreignFrame
  split
  · exact .kept (.of_group (by simp))
  · exact .kept (.of_group (by simp))
  · have heard : (s.hearLink l r).judgeSelection l r = s.heard s.timebase l r := by
      have now : s.atInstant s.timebase = s := by cases s; cases quiet; rfl
      rw [State.heard, now]
    rw [heard]
    exact .of_before (hs _ (s.heard_handed ..)) (s.heard_group ..)

theorem State.receiveBytes_step {s : State} (quiet : s.handed = []) (l : Link) (bytes : List Byte) :
    DeblockStep s (s.receiveBytes l bytes) := by
  unfold State.receiveBytes
  split
  · exact State.receive_step (fun w h => State.serveOrder_step h l _) quiet ..
  · split
    · exact State.receive_step (fun w _ => .kept (w.serveRequest_noDeblock l _ _)) quiet ..
    · exact State.receive_step (fun w _ => .kept (.refl w)) quiet ..

end Sys2Proof.Machine
end

section
/-! PROOF. What every command can do to the mode: RUNNING and DEBLOCKING are entered by a fit group alone
(R123, R124, R126, R128, R137). -/

namespace Sys2Proof.Machine

open Sys2Proof

/-! ## The commands one by one -/

section
variable {s u : State} {t : Instant} {j : Valve}

theorem DeblockStep.of_atTick {f : State → State} (h : s.atTick t f = .next u)
    (hf : ∀ w : State, w.handed = [] → DeblockStep w (f w)) : DeblockStep s u := by
  rcases State.atTick_next h with rfl | ⟨-, rfl⟩
  · exact .kept (.refl u)
  · exact .of_before (hf (s.atInstant t) rfl) rfl

theorem NoDeblock.of_atTick {f : State → State} (h : s.atTick t f = .next u)
    (hf : NoDeblock (s.atInstant t) (f (s.atInstant t))) : NoDeblock s u := by
  rcases State.atTick_next h with rfl | ⟨-, rfl⟩
  · exact .refl u
  · exact .trans (u := s.atInstant t) (.of_group rfl) hf

theorem NoDeblock.of_inputMoves {high : Bool} {act : Image → State → State}
    (ha : ∀ im w, ∃ d b, act im w = w.setDetector d b) (h : s.inputMoves t high act = .next u) :
    NoDeblock s u := by
  unfold State.inputMoves at h
  split at h
  · cases h
    exact .of_group rfl
  · refine .of_atTick h ?_
    obtain ⟨d, b, e⟩ := ha _ (s.atInstant t)
    rw [e]
    exact .of_group rfl
  · exact .of_atTick h (.of_group rfl)

/-- Causes taken after an operation that keeps the mode. -/
theorem NoDeblock.settled {w : State} (h : w.group.mode = s.group.mode) : NoDeblock s w.settle :=
  (NoDeblock.of_mode h).trans w.settle_noDeblock

theorem NoDeblock.resetEnd {e : ResetEnd} (h : execResetEnd s e = .next u) : NoDeblock s u := by
  unfold execResetEnd at h
  split at h
  · split at h <;> cases h <;> exact .of_group rfl
  · cases h
    exact .refl s

theorem NoDeblock.loadingReadDone {words : Image} (h : execLoadingReadDone t words s = .next u) :
    NoDeblock s u := by
  refine .of_atTick h ?_
  split
  · split
    · simp only
      split
      · exact .of_group (State.enterReady_group _ words)
      · exact .of_group rfl
    · exact .refl _
  · exact .refl _

theorem NoDeblock.loadingTimeout (h : execLoadingTimeout t s = .next u) : NoDeblock s u := by
  refine .of_atTick h ?_
  split
  · split
    · exact .of_group rfl
    · exact .refl _
  · exact .refl _

theorem NoDeblock.crossingCandidate (h : execCrossingCandidate t s = .next u) : NoDeblock s u :=
  .of_inputMoves (fun im w => by
    split
    · exact ⟨_, _, rfl⟩
    · exact w.breakLowRun_sets im t) h

theorem NoDeblock.candidateDropped (h : execCandidateDropped t s = .next u) : NoDeblock s u :=
  .of_inputMoves (fun im w => by
    split
    · split
      · exact ⟨_, _, rfl⟩
      · exact ⟨_, _, w.setDetector_self⟩
    · exact w.startLowRun_sets t) h

theorem DeblockStep.crossingConfirmed (h : execCrossingConfirmed t s = .next u) : DeblockStep s u := by
  refine .of_atTick h fun w _ => ?_
  split
  · split
    · exact .of_before (State.judgeCrossing_step ..) rfl
    · exact .kept (.refl w)
  · exact .kept (.refl w)

theorem NoDeblock.detectorRearm (h : execDetectorRearm t s = .next u) : NoDeblock s u := by
  refine .of_atTick h ?_
  split
  · split
    · exact .of_group rfl
    · exact .refl _
  · exact .refl _

theorem DeblockStep.deadlineReached (h : execDeadlineReached t s = .next u) : DeblockStep s u := by
  refine .of_atTick h fun w _ => ?_
  split
  · split
    · exact .of_before (State.handReference_step ..) (w.synthetic_group ..)
    · exact .kept (.refl w)
  · exact .kept (.refl w)

theorem NoDeblock.takeUp (h : execTakeUp t j s = .next u) : NoDeblock s u := by
  refine .of_atTick h ?_
  split
  · exact .refl _
  · split
    · exact .settled (State.takenUp_mode _ j)
    · exact .refl _

theorem NoDeblock.firingInstant (h : execFiringInstant t j s = .next u) : NoDeblock s u := by
  refine .of_atTick h ?_
  split
  · split
    · exact .settled (State.checkReadiness_mode ..)
    · exact .refl _
  · exact .refl _

theorem NoDeblock.forcedFiring (h : execForcedFiring t j s = .next u) : NoDeblock s u := by
  refine .of_atTick h ?_
  split
  · split
    · exact .settled (State.issue_mode (s.atInstant t) .forced j)
    · exact .refl _
  · exact .refl _

theorem NoDeblock.extinctionDeadline (h : execExtinctionDeadline t j s = .next u) :
    NoDeblock s u := by
  refine .of_atTick h ?_
  split
  · split
    · exact .of_group rfl
    · exact .refl _
  · exact .refl _

theorem NoDeblock.bypassGating (h : execBypassGating t s = .next u) : NoDeblock s u := by
  refine .of_atTick h ?_
  split
  · split
    · exact .settled (State.fireLegs_mode (s.atInstant t))
    · exact .refl _
  · exact .refl _

theorem NoDeblock.channelDown (h : execChannelDown t j s = .next u) : NoDeblock s u := by
  refine .of_atTick h ?_
  split
  · split
    · exact .settled rfl
    · exact .refl _
  · exact .refl _

theorem NoDeblock.vc12Idle (h : execVc12Idle t j s = .next u) : NoDeblock s u := by
  refine .of_atTick h ?_
  split
  · split
    · exact .of_group rfl
    · exact .refl _
  · exact .refl _

theorem NoDeblock.controlLoss (h : execControlLoss t s = .next u) : NoDeblock s u := by
  refine .of_atTick h ?_
  split
  · simp only
    split
    · exact .of_group rfl
    · exact .settled rfl
  · exact .refl _

theorem NoDeblock.replySent {l : Link} (h : execReplySent t l s = .next u) : NoDeblock s u := by
  refine .of_atTick h ?_
  split
  · exact .refl _
  · exact .of_group (State.modLink_group ..)

theorem NoDeblock.storeComplete (h : execStoreComplete t s = .next u) : NoDeblock s u := by
  refine .of_atTick h ?_
  split
  · split
    · exact .of_group rfl
    · exact .refl _
  · exact .refl _

theorem NoDeblock.storeFailed {why : StoreFault} (h : execStoreFailed t why s = .next u) :
    NoDeblock s u := by
  refine .of_atTick h ?_
  split
  · split
    · exact .of_group rfl
    · exact .refl _
  · exact .refl _

theorem DeblockStep.of_request {l : Link} {q : ServiceHead} {r : Request} {bytes : List Byte}
    {role : Role}
    (h : s.atTick t (State.receive l bytes role (State.serveRequest l q r)) = .next u) :
    DeblockStep s u :=
  .of_atTick h fun _ quiet =>
    State.receive_step (fun w _ => .kept (w.serveRequest_noDeblock l q r)) quiet ..

end

/-- A reference alone enters RUNNING, and an ORDER frame alone DEBLOCKING. -/
theorem exec_deblockStep {i : Instr} {s u : State} (h : exec i s = .next u) : DeblockStep s u := by
  cases i with
  | powerOnReset => cases h; exact .kept (.of_blocked rfl)
  | resetPin => cases h; exact .kept (.of_blocked rfl)
  | resetEnd e => exact .kept (.resetEnd h)
  | loadingReadDone t words => exact .kept (.loadingReadDone h)
  | loadingTimeout t => exact .kept (.loadingTimeout h)
  | crossingCandidate t => exact .kept (.crossingCandidate h)
  | candidateDropped t => exact .kept (.candidateDropped h)
  | crossingConfirmed t => exact .crossingConfirmed h
  | detectorRearm t => exact .kept (.detectorRearm h)
  | deadlineReached t => exact .deadlineReached h
  | takeUp t j => exact .kept (.takeUp h)
  | firingInstant t j => exact .kept (.firingInstant h)
  | forcedFiring t j => exact .kept (.forcedFiring h)
  | extinctionDeadline t j => exact .kept (.extinctionDeadline h)
  | pulseReport t j body => exact .kept (.of_atTick h (State.messageArrives_noDeblock ..))
  | oiuIdle t j body => exact .kept (.of_atTick h (State.messageArrives_noDeblock ..))
  | channelDown t j => exact .kept (.channelDown h)
  | vc12Idle t j => exact .kept (.vc12Idle h)
  | bypassGating t => exact .kept (.bypassGating h)
  | linkSilence t l => exact .kept (.of_atTick h (.of_group (State.judgeSilence_group _ l)))
  | controlLoss t => exact .kept (.controlLoss h)
  | orderFrame t l f =>
    exact .of_atTick h fun _ quiet =>
      State.receive_step (fun _ h => State.serveOrder_step h l f) quiet ..
  | replySent t l => exact .kept (.replySent h)
  | lookUpLevel t l q j p => exact .of_request (r := .lookUpLevel j p) h
  | lookUpValve t l q j => exact .of_request (r := .lookUpValve j) h
  | seek t l q j p => exact .of_request (r := .seek j p) h
  | walk t l q since => exact .of_request (r := .walk since) h
  | retire t l q j p => exact .of_request (r := .retire j p) h
  | restore t l q j p => exact .of_request (r := .restore j p) h
  | clearCounts t l q j p => exact .of_request (r := .clearCounts j p) h
  | configRead t l q a n => exact .of_request (r := .configRead a n) h
  | configWrite t l q a n data => exact .of_request (r := .configWrite a n data) h
  | configApply t l q => exact .of_request (r := .configApply) h
  | configStore t l q => exact .of_request (r := .configStore) h
  | serviceReset t l q => exact .of_request (r := .reset) h
  | storeComplete t => exact .kept (.storeComplete h)
  | storeFailed t why => exact .kept (.storeFailed h)
  | lowRunStart t => exact .kept (.of_inputMoves (fun _ w => w.startLowRun_sets t) h)
  | lowRunBroken t => exact .kept (.of_inputMoves (fun im w => w.breakLowRun_sets im t) h)
  | messageOfUnknownKind t j msg => exact .kept (.of_atTick h (State.messageArrives_noDeblock ..))
  | discardedFrameArrives t l bytes =>
    exact .of_atTick h fun _ quiet => State.receiveBytes_step quiet l bytes

theorem step_deblockStep {s u : State} (h : step s = .next u) : DeblockStep s u := by
  unfold step at h
  split at h
  · cases h
    unfold State.tick
    split <;> exact .kept (.of_group rfl)
  · exact .of_before (exec_deblockStep h) rfl

/-- Settles O60: a step that enters a deblocked mode enters it as `DeblockStep` has it. -/
theorem onlyAFitGroupRuns : Obligations.OnlyAFitGroupRuns := by
  intro s u h
  cases step_deblockStep h with
  | kept h =>
    exact ⟨fun enters was => absurd (h.running enters) was,
      fun enters was => absurd (h.deblocking enters) was⟩
  | runs mode origin free ready fit =>
    exact ⟨fun _ _ => ⟨origin, free, ready, fit⟩, fun enters _ => nomatch mode.symm.trans enters⟩
  | deblocks mode origin fit requested =>
    exact ⟨fun enters _ => (nomatch mode.symm.trans enters), fun _ _ => ⟨fit, requested, origin⟩⟩

end Sys2Proof.Machine
end

section
/-! PROOF. The gating expiry: the four messages to the legs in every mode but RUNNING, and the one cause that
their closings can hand (R88, R131, R132, R135 to R137, assumptions 4 and 5). -/

namespace Sys2Proof.Machine

open Sys2Proof

/-! ## Messages do not read the group -/

/-- The state with the group replaced. -/
def State.withGroup (g : Group) (s : State) : State := { s with group := g }

section
variable (s : State) (g : Group) (j : Valve)

theorem State.levelChange_withGroup (c : LevelState × LevelState) :
    (s.withGroup g).levelChange j c = (s.levelChange j c).withGroup g := by
  rw [s.levelChange_eq]
  simp only [apply_ite (State.withGroup g)]
  rfl

theorem foldl_levelChange_withGroup (cs : List (LevelState × LevelState)) :
    cs.foldl (State.levelChange j) (s.withGroup g)
      = (cs.foldl (State.levelChange j) s).withGroup g := by
  induction cs generalizing s with
  | nil => rfl
  | cons c cs ih => rw [List.foldl_cons, State.levelChange_withGroup, ih, List.foldl_cons]

theorem State.closeInterval_withGroup :
    (s.withGroup g).closeInterval j = (s.closeInterval j).withGroup g := by
  let r := reviewAll (s.par Par.msus) (s.par Par.mdark)
    (decide (s.qv j ≤ (s.valve j).monitor.indicated)) s.counter (s.valve j).levels
  have changed := foldl_levelChange_withGroup (({ s with counter := r.counter }).setValve j
    { s.valve j with levels := r.levels }) g j r.changes
  exact congrArg (fun w : State => w.modValve j fun v =>
    { v with monitor := { v.monitor with indicated := 0, distinctPfi := 0 } }) changed

/-- Under another group a message notes the upper valve there, and does nothing else differently. -/
theorem State.fireOwn_withGroup (k : FireKind) : (s.withGroup g).fireOwn k j
    = (s.fireOwn k j).withGroup ((s.withGroup g).noteUpper j).group := by
  have messaged : (s.withGroup g).messaged k j
      = (s.messaged k j).withGroup ((s.withGroup g).noteUpper j).group := rfl
  rw [State.fireOwn_eq, State.fireOwn_eq, messaged]
  by_cases conducting : (s.valve j).monitor.phase = .conducting
  · rw [if_pos conducting]
    exact if_pos conducting
  · rw [if_neg conducting, ← State.closeInterval_withGroup]
    exact if_neg conducting

end

/-- Several messages outside RUNNING under another group. -/
theorem foldl_fire_withGroup (js : List Valve) {s : State} {g : Group}
    (hs : s.group.mode ≠ .running) (hg : g.mode ≠ .running) :
    js.foldl (fun w j => w.fire .bypass j) (s.withGroup g)
      = (js.foldl (fun w j => w.fire .bypass j) s).withGroup
          (js.foldl (fun w j => w.fire .bypass j) (s.withGroup g)).group := by
  induction js generalizing s g with
  | nil => rfl
  | cons j js ih =>
    have first : (s.withGroup g).fire .bypass j
        = (s.fire .bypass j).withGroup ((s.withGroup g).noteUpper j).group := by
      rw [State.fire_idle hs, State.fire_idle (s := s.withGroup g) hg, State.fireOwn_withGroup]
    have mode : ((s.withGroup g).noteUpper j).group.mode = g.mode := State.noteUpper_mode ..
    rw [List.foldl_cons, List.foldl_cons, first]
    exact ih (by rwa [State.fire_mode]) (by rwa [mode])

/-- In BLOCKED messages leave the group, which notes no upper valve (R132). -/
theorem foldl_fire_blocked_group (js : List Valve) {s : State} (hb : s.group.mode = .blocked) :
    (js.foldl (fun w j => w.fire .bypass j) s).group = s.group := by
  induction js generalizing s with
  | nil => rfl
  | cons j js ih =>
    obtain ⟨-, -, -, -, noted, -⟩ := s.fireOwn_frame .bypass j
    have first : (s.fire .bypass j).group = s.group := by
      rw [State.fire_idle (by simp [hb]), noted, State.noteUpper, if_pos hb]
    rw [List.foldl_cons, ih (by rw [first, hb]), first]

/-! ## The four messages -/

/-- The upper valve of a leg (R132). -/
def Leg.upper : Leg → Upper
  | .leg14 => .one
  | .leg36 => .three
  | .leg52 => .five

theorem legsOf_upper (l : Legs) : legsOf (some l.y.upper) (some l.d.upper) = l := by
  rcases l with ⟨_ | _ | _, _ | _ | _⟩ <;> rfl

/-- A bridge's last upper valve after the four messages: outside BLOCKED that of its leg (R132). -/
def State.noted (s : State) (leg : Leg) (last : Option Upper) : Option Upper :=
  if s.group.mode = .blocked then last else some leg.upper

/-- What one BYPASS message to each valve of the legs `l` does outside RUNNING: the messages go out in the
order `js`, the last upper valves are noted, and the closings hand REDUNDANCY at most. -/
structure LegsGated (js : List Valve) (l : Legs) (s u : State) : Prop where
  sent : u.sent = (js.map fun j => s.fireSent s.timebase j).reverse ++ s.sent
  guard : u.guard = s.guard
  tracker : u.tracker = s.tracker
  choices : u.choices = s.choices
  group : u.group = { s.group with
    lastUpperY := s.noted l.y s.group.lastUpperY, lastUpperD := s.noted l.d s.group.lastUpperD }
  fired : ∀ j ∈ l.valves, BypassFired s.timebase (s.valve j) (u.valve j)
  others : ∀ j, j ∉ l.valves → u.valve j = s.valve j
  words : ∀ k src, (∀ j ∈ l.valves, src ≠ .valve j) → u.word k src = s.word k src
  handed : s.handed = [] → ∀ c ∈ u.handed, c = .redundancy
  rest : RestKept s u

theorem foldl_fire_handed (js : List Valve) {s : State} (hr : s.group.mode ≠ .running) :
    let u := js.foldl (fun w j => w.fire .bypass j) s
    u.choices = s.choices
      ∧ ((∀ c ∈ s.handed, c = .redundancy) → ∀ c ∈ u.handed, c = .redundancy) := by
  induction js generalizing s with
  | nil => exact ⟨rfl, id⟩
  | cons j js ih =>
    obtain ⟨-, -, -, kept, -, -, -, -, -, -, -, more, handed, only⟩ := s.fireOwn_frame .bypass j
    obtain ⟨choices, causes⟩ := ih (s := s.fire .bypass j) (by rwa [State.fire_mode])
    rw [State.fire_idle hr] at choices causes
    rw [List.foldl_cons, State.fire_idle hr]
    refine ⟨choices.trans kept, fun h => causes fun c hc => ?_⟩
    rw [handed, List.mem_append] at hc
    exact hc.elim (h c) (only c)

/-- Outside RUNNING and BLOCKED the four messages note the upper valves of the legs. -/
theorem LegsFired.gated {js : List Valve} {l : Legs} {s u : State} (h : LegsFired js s u)
    (perm : js.Perm l.valves) : u.group = { s.group with
      lastUpperY := some l.y.upper, lastUpperD := some l.d.upper } := by
  obtain ⟨onlyY, y, hy, upperY⟩ := upperOfY_legsOf (some l.y.upper) (some l.d.upper)
  obtain ⟨onlyD, d, hd, upperD⟩ := upperOfD_legsOf (some l.y.upper) (some l.d.upper)
  rw [legsOf_upper] at onlyY onlyD hy hd
  rw [h.group, foldl_or_upper js (fun j hj => onlyY j (perm.mem_iff.1 hj)) _
      (.inr ⟨y, perm.mem_iff.2 hy, upperY⟩),
    foldl_or_upper js (fun j hj => onlyD j (perm.mem_iff.1 hj)) _
      (.inr ⟨d, perm.mem_iff.2 hd, upperD⟩)]
  rfl

theorem foldl_fire_gated {js : List Valve} {l : Legs} (perm : js.Perm l.valves) {s : State}
    (hr : s.group.mode ≠ .running) :
    LegsGated js l s (js.foldl (fun w j => w.fire .bypass j) s) := by
  have nodup : js.Nodup := perm.nodup_iff.2 l.valves_nodup
  obtain ⟨choices, handed⟩ := foldl_fire_handed js hr
  have rest : RestKept s (js.foldl (fun w j => w.fire .bypass j) s) :=
    foldl_rest (fun w j => State.fire .bypass j w) (fun w j => w.fire_rest .bypass j) _ _
  have causes (h : s.handed = []) := handed (by simp [h])
  have listed {P : Valve → Prop} (h : ∀ j ∈ js, P j) : ∀ j ∈ l.valves, P j :=
    fun j hj => h j (perm.mem_iff.2 hj)
  by_cases hb : s.group.mode = .blocked
  case neg =>
    have fired := foldl_fire_bypass js nodup hr hb
    refine ⟨fired.sent, fired.guard, fired.tracker, choices, ?_, listed fired.fired,
      fun j hj => fired.others j (mt perm.mem_iff.1 hj),
      fun k src h => fired.words k src fun j hj => h j (perm.mem_iff.1 hj), causes, rest⟩
    rw [fired.gated perm, State.noted, State.noted, if_neg hb, if_neg hb]
  case pos =>
    let g : Group := { s.group with mode := .bypass }
    have fired := foldl_fire_bypass js nodup (s := s.withGroup g) nofun nofun
    have noted (leg : Leg) (last : Option Upper) : s.noted leg last = last := if_pos hb
    rw [foldl_fire_withGroup js hr (g := g) nofun] at fired
    refine ⟨fired.sent, fired.guard, fired.tracker, choices, ?_, listed fired.fired,
      fun j hj => fired.others j (mt perm.mem_iff.1 hj),
      fun k src h => ?_, causes, rest⟩
    · rw [foldl_fire_blocked_group js hb, noted, noted]
    · exact fired.words k src fun j hj => h j (perm.mem_iff.1 hj)

/-! ## What the changes of mode post -/

section
variable (s : State) (l : Link) (src : Source)

theorem State.refuse_word (why : RefusalReason) : (s.refuse why).word l src
    = if src = .mode then s.word l .mode ||| modeRefused else s.word l src := by
  unfold State.refuse
  rw [State.post_word]
  cases l <;> rfl

theorem State.enterBlocked_word : s.enterBlocked.word l src
    = if src = .mode then s.word l .mode ||| modeBlocked else s.word l src := by
  rw [s.enterBlocked_eq, State.post_word]
  cases l <;> rfl

theorem State.enterRunning_word : s.enterRunning.word l src
    = if src = .mode then s.word l .mode ||| modeRunning else s.word l src := by
  unfold State.enterRunning
  rw [State.post_word]
  cases l <;> rfl

/-- An entry to BLOCKED with its refusal posts both bits (R127, R128, R137). -/
theorem State.refusedBlocked_word (why : RefusalReason) : (s.enterBlocked.refuse why).word l src
    = if src = .mode then s.word l .mode ||| (modeBlocked ||| modeRefused) else s.word l src := by
  rw [State.refuse_word, State.enterBlocked_word, if_pos rfl, State.enterBlocked_word,
    BitVec.or_assoc]
  split <;> rfl

end

/-- Out of every mode but RUNNING the entry to BLOCKED moves no valve (R131). -/
theorem State.enterBlocked_idle {s : State} (h : s.group.mode ≠ .running) :
    s.enterBlocked = ({ s with
      group := { s.group with
        mode := .blocked, origin := none, lastUpperY := none, lastUpperD := none, legs := none
        gatingExpiry := none }
      guard := { s.guard with advance := 0 } } : State).post .mode modeBlocked := by
  rw [s.enterBlocked_eq, State.leaveMode, if_neg h]

/-! ## The one cause that the closings hand -/

theorem foldl_latch_held (cs : List TripCause) {s : State}
    (h : ∀ c ∈ cs, s.group.trips.has c = true) : cs.foldl State.latch s = s := by
  induction cs with
  | nil => rfl
  | cons c cs ih =>
    rw [List.foldl_cons, State.latch_held (.inl (h c (by simp)))]
    exact ih fun c' hc => h c' (by simp [hc])

/-- One more cause in the set and its TRIP bit on both links (R136). -/
def State.withTrip (c : TripCause) (s : State) : State :=
  ({ s with group := { s.group with trips := s.group.trips.add c } }).post .trip c.bit

theorem State.withTrip_word (s : State) (c : TripCause) (l : Link) (src : Source) :
    (s.withTrip c).word l src = if src = .trip then s.word l .trip ||| c.bit else s.word l src := by
  unfold State.withTrip
  rw [State.post_word]
  cases l <;> rfl

/-- A deblocking ended by a trip: BLOCKED with refusal TRIP (R131, R137). -/
theorem State.latch_deblocking {s : State} {c : TripCause} (mode : s.group.mode = .deblocking)
    (hc : s.group.trips.has c = false) (h : ¬ (c = .syncLost ∧ s.blockFollows = true)) :
    s.latch c = (s.withTrip c).enterBlocked.refuse .trip := by
  rw [State.latch_acted hc (by simp [mode]) h]
  exact State.actOnTrip_deblocking c mode

/-- Outside RUNNING REDUNDANCY alone changes nothing, joins the set, or ends a deblocking (R136, R137). -/
theorem State.settle_redundancy {s : State} (only : ∀ c ∈ s.handed, c = .redundancy)
    (hr : s.group.mode ≠ .running) :
    s.settle = { s with handed := [] }
      ∨ (s.group.trips.redundancy = false ∧ s.settle = if s.group.mode = .deblocking
          then (({ s with handed := [] }).withTrip .redundancy).enterBlocked.refuse .trip
          else ({ s with handed := [] }).withTrip .redundancy) := by
  unfold State.settle
  generalize s.handed = cs at only ⊢
  by_cases held : s.group.trips.redundancy = true
  · exact .inl (foldl_latch_held cs fun c hc => by rw [only c hc]; exact held)
  rw [Bool.not_eq_true] at held
  rcases cs with _ | ⟨c, cs⟩
  · exact .inl rfl
  obtain rfl := only c (by simp)
  have later : (State.latch { s with handed := [] } .redundancy).group.trips.has .redundancy = true :=
    State.latch_has (by simp)
  refine .inr ⟨held, ?_⟩
  rw [List.foldl_cons, foldl_latch_held cs fun c hc => by rw [only c (by simp [hc])]; exact later]
  split
  case isTrue mode => exact State.latch_deblocking (s := { s with handed := [] }) mode held (by simp)
  case isFalse mode =>
    rw [State.latch_acted (s := { s with handed := [] }) (c := .redundancy) held (by simp) (by simp)]
    refine State.actOnTrip_idle _ ?_
    show s.group.mode = .blocked ∨ s.group.mode = .bypass
    rcases h : s.group.mode <;> simp_all

/-- What causes taken after a gating move: outside RUNNING REDUNDANCY at most is added, and in DEBLOCKING the
group goes to BLOCKED for it (R131, R136, R137). -/
structure GatingSettled (s u : State) : Prop where
  valves : u.valves = s.valves
  sent : u.sent = s.sent
  tracker : u.tracker = s.tracker
  choices : u.choices = s.choices
  words : ∀ l src, src ≠ .trip → src ≠ .mode → u.word l src = s.word l src
  same : u.group.trips = s.group.trips → ∀ l src, u.word l src = s.word l src
  trips : u.group.trips = s.group.trips ∨ u.group.trips = s.group.trips.add .redundancy
  group : (u.guard = s.guard ∧ u.group = { s.group with trips := u.group.trips })
    ∨ (s.group.mode = .deblocking ∧ s.group.trips.redundancy = false
      ∧ u.guard = { s.guard with advance := 0 }
      ∧ u.group = { s.group with
          mode := .blocked, origin := none, trips := s.group.trips.add .redundancy
          refusal := some .trip, lastUpperY := none, lastUpperD := none, legs := none
          gatingExpiry := none })
  ends : s.group.mode = .deblocking → s.group.trips.redundancy = false →
    u.group.trips = s.group.trips.add .redundancy → u.group.mode = .blocked

theorem TripSet.add_ne {t : TripSet} {c : TripCause} (h : t.has c = false) : t.add c ≠ t := by
  intro same
  have had := t.has_add c c
  rw [same, h] at had
  simp at had

theorem State.settle_gating {s : State} (only : ∀ c ∈ s.handed, c = .redundancy)
    (hr : s.group.mode ≠ .running) : GatingSettled s s.settle := by
  rcases State.settle_redundancy only hr with e | ⟨fresh, e⟩
  · rw [e]
    refine ⟨rfl, rfl, rfl, rfl, fun l _ _ _ => ?_, fun _ l _ => ?_, .inl rfl, .inl ⟨rfl, rfl⟩,
      fun _ fresh added => absurd added.symm (TripSet.add_ne (c := .redundancy) fresh)⟩ <;>
      cases l <;> rfl
  have new : s.group.trips.add .redundancy ≠ s.group.trips := TripSet.add_ne (c := .redundancy) fresh
  rw [e]
  split
  case isFalse mode =>
    refine ⟨rfl, rfl, rfl, rfl, fun l src trip _ => ?_, fun same => absurd same new, .inr rfl,
      .inl ⟨rfl, rfl⟩, fun h => absurd h mode⟩
    rw [State.withTrip_word, if_neg trip]
    cases l <;> rfl
  case isTrue mode =>
    have words (l : Link) (src : Source) (trip : src ≠ .trip) (mode : src ≠ .mode) :
        ((({ s with handed := [] } : State).withTrip .redundancy).enterBlocked.refuse .trip).word l src
          = s.word l src := by
      rw [State.refusedBlocked_word, if_neg mode, State.withTrip_word, if_neg trip]
      cases l <;> rfl
    have idle := State.enterBlocked_idle (s := ({ s with handed := [] } : State).withTrip .redundancy) hr
    rw [idle] at words ⊢
    exact ⟨rfl, rfl, rfl, rfl, words, fun same => absurd same new, .inr rfl,
      .inr ⟨mode, fresh, rfl, rfl⟩, fun _ _ _ => rfl⟩

/-! ## The expiry -/

theorem exec_bypassGating {s : State} {t e : Instant} {l : Legs} (live : s.live)
    (legs : s.group.legs = some l) (expiry : s.group.gatingExpiry = some e)
    (due : reached t e = true) : exec (.bypassGating t) s = .next
      (let fired := (s.atInstant t).fireLegs
      ({ fired with group := { fired.group with
        gatingExpiry := some (after e fired.gatingInterval) } } : State).settle) := by
  have legs' : (s.atInstant t).group.legs = some l := legs
  have expiry' : (s.atInstant t).group.gatingExpiry = some e := expiry
  show execBypassGating t s = _
  simp only [execBypassGating, State.atTick_live live, legs', expiry', due, if_true]

/-- A leg valve fired BYPASS, among whatever else the messages sent (R38, R88). -/
theorem LegsGated.fires {js : List Valve} {l : Legs} {s u : State} (h : LegsGated js l s u)
    (perm : js.Perm l.valves) {j : Valve} (hj : j ∈ l.valves) :
    Fired s u s.timebase .bypass j := by
  have message : s.fireSent s.timebase j ∈ (js.map fun j => s.fireSent s.timebase j).reverse :=
    List.mem_reverse.2 (List.mem_map.2 ⟨j, perm.mem_iff.2 hj, rfl⟩)
  obtain ⟨later, earlier, parts⟩ := List.append_of_mem message
  have fired := h.fired j hj
  refine ⟨⟨later, earlier, ?_⟩, fired.lastFire, fired.lastSend, fired.phase, ?_⟩
  · rw [h.sent, parts, List.append_assoc, List.cons_append]
  · rw [fired.counts, if_pos rfl]

/-- Settles O36: the four messages, the next expiry, and then the causes that the closings hand. -/
theorem gatingFiresTheLegsAgain : Obligations.GatingFiresTheLegsAgain := by
  intro s t e l live legs due reached hr upper noted redundancy expiry
  have noted_eq : noted = s.noted := by
    funext leg last
    cases leg <;> rfl
  let start : State := { s.atInstant t with choices := s.choices.tail }
  have perm := legOrder_perm (s.choices.headD 0) l
  let fired := (legOrder (s.choices.headD 0) l.valves).foldl (fun w j => w.fire .bypass j) start
  have gates : (s.atInstant t).fireLegs = fired := State.fireLegs_some legs
  have gated : LegsGated (legOrder (s.choices.headD 0) l.valves) l start fired :=
    foldl_fire_gated perm hr
  let next : State := { fired with group := { fired.group with gatingExpiry := expiry } }
  have settled := State.settle_gating (s := next) (gated.handed rfl) (by
    show fired.group.mode ≠ _
    rw [gated.group]
    exact hr)
  have valve (j : Valve) : next.settle.valve j = fired.valve j := by
    rw [State.valve, settled.valves]
    rfl
  have word (k : Link) (src : Source) (h : ∀ j ∈ l.valves, src ≠ .valve j) :
      next.word k src = s.word k src := by
    refine .trans ?_ ((gated.words k src h).trans ?_) <;> cases k <;> rfl
  have group : next.group = { s.group with
      gatingExpiry := expiry
      lastUpperY := noted l.y s.group.lastUpperY
      lastUpperD := noted l.d s.group.lastUpperD } := by
    show ({ fired.group with gatingExpiry := expiry } : Group) = _
    rw [gated.group, noted_eq]
    rfl
  have trips := settled.trips
  have moved := settled.group
  have ends := settled.ends
  rw [group] at trips moved ends
  have gating : exec (.bypassGating t) s = .next next.settle := by
    have interval : fired.gatingInterval = s.gatingInterval := by
      rw [State.gatingInterval, gated.tracker]
      rfl
    rw [exec_bypassGating live legs due reached, gates]
    simp only [interval]
    rfl
  refine ⟨next.settle, gating, fun j hj => ?_, fun j hj => ?_,
    ⟨_, perm, settled.sent.trans gated.sent, rfl⟩, fun same k src h => ?_,
    fun k src trip mode h => (settled.words k src trip mode).trans (word k src h), trips, ?_, ends,
    settled.tracker.trans gated.tracker, settled.choices.trans gated.choices, ?_⟩
  · obtain ⟨⟨later, earlier, sent⟩, leg⟩ := gated.fires perm hj
    refine ⟨⟨later, earlier, settled.sent.trans sent⟩, ?_⟩
    rw [valve]
    exact leg
  · rw [valve, gated.others j hj]
    rfl
  · rw [settled.same (same.trans (congrArg Group.trips group).symm), word k src h]
  · have guard : next.guard = s.guard := gated.guard
    rw [guard] at moved
    exact moved
  · have started : RestKept (s.atInstant t) start := ⟨rfl, fun k => by cases k <;> rfl⟩
    exact (started.trans gated.rest).trans ((State.update_rest fired fired.counter fired.guard
      next.group fired.tracker fired.sent fired.handed).trans next.settle_rest)

end Sys2Proof.Machine
end

section
/-! PROOF. The first reference in DEBLOCKING: the recheck alone, and beside one trip cause in either order
(R119, R126, R128, R131, R136 to R138, assumptions 4, 5 and 25). -/

namespace Sys2Proof.Machine

open Sys2Proof

/-! ## One cause beside the recheck -/

/-- The recheck of DEBLOCKING leaves the causes handed and does not read them. -/
theorem State.recheck_settle {s : State} {c : TripCause} (mode : s.group.mode = .deblocking)
    (h : s.handed = [c]) : s.recheck.settle = ({ s with handed := [] } : State).recheck.latch c := by
  have idle : s.group.mode ≠ .running := by simp [mode]
  have fault : ({ s with handed := [] } : State).deblockFault = s.deblockFault := rfl
  rcases s.recheck_cases with ⟨-, fit, e⟩ | ⟨-, why, unfit, e⟩ | ⟨other, -⟩
  · rw [e, State.recheck_runs (s := { s with handed := [] }) mode fit, State.settle,
      show s.enterRunning.handed = [c] from h]
    rfl
  · have handed : (s.enterBlocked.refuse why).handed = [c] := by simpa using h
    rw [e, State.recheck_blocks (s := { s with handed := [] }) mode (fault.trans unfit), State.settle,
      handed, State.enterBlocked_idle idle, State.enterBlocked_idle (s := { s with handed := [] }) idle]
    rfl
  · exact absurd mode other

/-- The state in which the recheck and the causes handed at a reference are taken (assumption 5). -/
def State.chosen (s : State) : State := { s with choices := s.choices.tail, handed := [] }

theorem State.recheckAndSettle_single {s : State} {c : TripCause} (mode : s.group.mode = .deblocking)
    (h : s.handed = [c]) : s.recheckAndSettle
      = if s.choices.headD 0 % 2 = 0 then (s.chosen.latch c).recheck else s.chosen.recheck.latch c := by
  rw [State.recheckAndSettle_ordered mode (by simp [h])]
  congr 1
  · rw [State.settle, h]
    rfl
  · exact State.recheck_settle (s := { s with choices := s.choices.tail }) mode h

/-! ## What a reference leaves for the recheck -/

/-- The group, its preconditions and the words of MODE and TRIP are those of `s`, nothing has been sent, and
what a firing reads of the valves stands. -/
structure RecheckAlike (s x : State) : Prop where
  group : x.group = s.group
  fits : BlocksAlike s x
  mode : ∀ l, x.word l .mode = s.word l .mode
  trip : ∀ l, x.word l .trip = s.word l .trip
  sent : x.sent = s.sent
  levels : ∀ j, (x.valve j).levels = (s.valve j).levels
  counts : ∀ j k, (x.valve j).firingCount k = (s.valve j).firingCount k
  rest : RestKept s x

theorem ValveRecord.offered_kept (v : ValveRecord) (p : Nat) (z : Instant) :
    (v.offered p z).levels = v.levels ∧ (v.offered p z).monitor = v.monitor
      ∧ ∀ k, (v.offered p z).firingCount k = v.firingCount k := by
  unfold ValveRecord.offered
  split <;> exact ⟨rfl, rfl, fun k => by cases k <;> rfl⟩

theorem State.referenceTaken_alike (s : State) (im : Image) (tref : Instant) :
    RecheckAlike s (s.referenceTaken im tref) := by
  have only := s.referenceTaken_only im tref
  have kept (j : Valve) := (s.valve j).offered_kept s.tracker.period
    (zeroFrom im j tref s.tracker.period)
  have rest := s.referenceTaken_rest im tref
  refine ⟨s.referenceTaken_group im tref, ⟨rest.unit, by rw [only], fun j => ?_, fun j => ?_⟩,
    fun l => ?_, fun l => ?_, by rw [only], fun j => ?_, fun j k => ?_, rest⟩
  · rw [State.referenceTaken_valve]
  · obtain ⟨-, monitor, -⟩ := kept j
    rw [State.referenceTaken_valve, monitor]
  · rw [State.referenceTaken_word, if_neg (by simp)]
  · rw [State.referenceTaken_word, if_neg (by simp)]
  · obtain ⟨levels, -⟩ := kept j
    rw [State.referenceTaken_valve, levels]
  · obtain ⟨-, -, counts⟩ := kept j
    rw [State.referenceTaken_valve, ← counts k]
    cases k <;> rfl

theorem RecheckAlike.chosen {s x : State} (h : RecheckAlike s x) : RecheckAlike s x.chosen where
  group := h.group
  fits := ⟨h.fits.unit, h.fits.sync, h.fits.up, h.fits.tally⟩
  mode l := by rw [← h.mode]; cases l <;> rfl
  trip l := by rw [← h.trip]; cases l <;> rfl
  sent := h.sent
  levels := h.levels
  counts := h.counts
  rest := h.rest.trans ⟨rfl, fun l => by cases l <;> rfl⟩

/-! ## The outcomes, in the group and in the words -/

/-- The group in RUNNING after a deblocking (R128). -/
def Group.deblocked (g : Group) : Group :=
  { g with mode := .running, origin := none, legs := none, gatingExpiry := none }

/-- The group in BLOCKED after a deblocking refused for `why` (R128, R131). -/
def Group.refused (g : Group) (why : RefusalReason) : Group :=
  { g with
    mode := .blocked, origin := none, refusal := some why, lastUpperY := none, lastUpperD := none
    legs := none, gatingExpiry := none }

/-- The group is `g`, and `mode` and `trip` have joined the words of MODE and TRIP. -/
structure Ended (s u : State) (g : Group) (mode trip : BitVec 12) : Prop where
  group : u.group = g
  mode : Posted s u .mode mode
  trip : Posted s u .trip trip

theorem or_no_bits (w : BitVec 12) : w ||| 0 = w := BitVec.or_zero

/-- A cause added to what has ended. -/
theorem Ended.withTrip {s u : State} {g : Group} {mode : BitVec 12} (h : Ended s u g mode 0)
    (c : TripCause) : Ended s (u.withTrip c) { g with trips := g.trips.add c } mode c.bit where
  group := congrArg (fun g : Group => { g with trips := g.trips.add c }) h.group
  mode l := by rw [State.withTrip_word, if_neg (by simp), h.mode]
  trip l := by rw [State.withTrip_word, if_pos rfl, h.trip, or_no_bits]

theorem State.refusedBlocked_group (s : State) (why : RefusalReason) :
    (s.enterBlocked.refuse why).group = s.group.refused why := by
  rw [s.enterBlocked_eq]
  rfl

namespace RecheckAlike
variable {s x : State} (h : RecheckAlike s x)
include h

theorem runs : Ended s x.enterRunning s.group.deblocked modeRunning 0 where
  group := congrArg Group.deblocked h.group
  mode l := by rw [State.enterRunning_word, if_pos rfl, h.mode]
  trip l := by rw [State.enterRunning_word, if_neg (by simp), h.trip, or_no_bits]

theorem blocks (why : RefusalReason) :
    Ended s (x.enterBlocked.refuse why) (s.group.refused why) (modeBlocked ||| modeRefused) 0 where
  group := by rw [State.refusedBlocked_group, h.group]
  mode l := by rw [State.refusedBlocked_word, if_pos rfl, h.mode]
  trip l := by rw [State.refusedBlocked_word, if_neg (by simp), h.trip, or_no_bits]

theorem trip_blocks (c : TripCause) (why : RefusalReason) :
    Ended s ((x.withTrip c).enterBlocked.refuse why)
      { s.group.refused why with trips := s.group.trips.add c }
      (modeBlocked ||| modeRefused) c.bit where
  group := by
    rw [State.refusedBlocked_group, ← h.group]
    rfl
  mode l := by rw [State.refusedBlocked_word, if_pos rfl, State.withTrip_word, if_neg (by simp), h.mode]
  trip l := by rw [State.refusedBlocked_word, if_neg (by simp), State.withTrip_word, if_pos rfl, h.trip]

/-- The preconditions fail for `x` as for `s` (R126). -/
theorem fault {why : RefusalReason} (hf : s.deblockFault = some why) : x.deblockFault = some why :=
  (h.fits.deblockFault (congrArg Group.trips h.group)).trans hf

theorem fit (hf : s.fit) : x.fit := (h.fits.fit (congrArg Group.trips h.group)).2 hf

theorem fresh {c : TripCause} (hc : s.group.trips.has c = false) : x.group.trips.has c = false := by
  rwa [h.group]

variable (mode : s.group.mode = .deblocking)
include mode

theorem deblocking : x.group.mode = .deblocking := by rw [h.group, mode]

/-- The recheck alone, with the preconditions holding. -/
theorem recheck_fit (hf : s.fit) : Ended s x.recheck s.group.deblocked modeRunning 0 := by
  rw [State.recheck_runs (h.deblocking mode) (h.fit hf)]
  exact h.runs

/-- The recheck alone, with a precondition failing. -/
theorem recheck_fault {why : RefusalReason} (hf : s.deblockFault = some why) :
    Ended s x.recheck (s.group.refused why) (modeBlocked ||| modeRefused) 0 := by
  rw [State.recheck_blocks (h.deblocking mode) (h.fault hf)]
  exact h.blocks why

variable {c : TripCause}

/-- Either order, with the cause held already. -/
theorem held_fault (held : s.group.trips.has c = true) {why : RefusalReason}
    (hf : s.deblockFault = some why) :
    (x.latch c).recheck = x.enterBlocked.refuse why ∧ x.recheck.latch c = x.enterBlocked.refuse why := by
  have heldX : x.group.trips.has c = true := by rwa [h.group]
  have heldB : (x.enterBlocked.refuse why).group.trips.has c = true := by
    rw [State.refusedBlocked_group]
    exact heldX
  rw [State.latch_held (.inl heldX), State.recheck_blocks (h.deblocking mode) (h.fault hf),
    State.latch_held (.inl heldB)]
  exact ⟨rfl, rfl⟩

variable (hc : s.group.trips.has c = false)
include hc

/-- The cause first ends the deblocking, and nothing is left to recheck (R137). -/
theorem cause_ends (acted : ¬ (c = .syncLost ∧ s.blockFollows = true)) :
    (x.latch c).recheck = (x.withTrip c).enterBlocked.refuse .trip := by
  rw [← h.rest.blockFollows] at acted
  rw [State.latch_deblocking (h.deblocking mode) (h.fresh hc) acted, State.recheck_idle]
  simp [State.refusedBlocked_group, Group.refused]

/-- SYNC_LOST beside a BLOCK of its tick joins the set, and the recheck finds it there (R15, R128). -/
theorem cause_unacted (unacted : c = .syncLost ∧ s.blockFollows = true) {why : RefusalReason}
    (hf : ({ s with group := { s.group with trips := s.group.trips.add c } }).deblockFault = some why) :
    (x.latch c).recheck = (x.withTrip c).enterBlocked.refuse why := by
  rw [← h.rest.blockFollows] at unacted
  have latched : x.latch c = x.withTrip c :=
    State.latch_unacted (h.fresh hc) (by simp [h.deblocking mode]) unacted
  have alike : BlocksAlike { s with group := { s.group with trips := s.group.trips.add c } }
      (x.withTrip c) := ⟨h.fits.unit, h.fits.sync, h.fits.up, h.fits.tally⟩
  rw [latched, State.recheck_blocks (s := x.withTrip c) (h.deblocking mode)]
  exact (alike.deblockFault (congrArg (fun g : Group => g.trips.add c) h.group)).trans hf

/-- The recheck first ends the deblocking, and in BLOCKED a cause asks for no action (R136, R137). -/
theorem fault_then_cause {why : RefusalReason} (hf : s.deblockFault = some why) :
    x.recheck.latch c = if c = .syncLost then x.enterBlocked.refuse why
      else (x.enterBlocked.refuse why).withTrip c := by
  rw [State.recheck_blocks (h.deblocking mode) (h.fault hf)]
  split
  case isTrue lost => exact State.latch_held (.inr ⟨lost, rfl⟩)
  case isFalse other =>
    have freshB : (x.enterBlocked.refuse why).group.trips.has c = false := by
      rw [State.refusedBlocked_group]
      exact h.fresh hc
    rw [State.latch_acted freshB (by simp [other]) (by simp [other])]
    exact State.actOnTrip_idle c (.inl rfl)

/-- The recheck first goes to RUNNING, where a cause that asks for no action joins the set (R137). -/
theorem run_then_cause (hf : s.fit)
    (idle : (s.par Par.byptrip ≠ 1 ∧ c ≠ .controlLoss) ∨ (c = .syncLost ∧ s.blockFollows = true)) :
    x.recheck.latch c = x.enterRunning.withTrip c := by
  have par : x.enterRunning.par Par.byptrip = s.par Par.byptrip := State.par_eq_of_unit h.rest.unit _
  have follows : x.enterRunning.blockFollows = s.blockFollows :=
    (h.rest.trans x.enterRunning_rest).blockFollows
  have freshR : x.enterRunning.group.trips.has c = false := h.fresh hc
  have notBlocked : ¬ (c = .syncLost ∧ x.enterRunning.group.mode = .blocked) := nofun
  rw [State.recheck_runs (h.deblocking mode) (h.fit hf)]
  rw [← follows] at idle
  by_cases unacted : c = .syncLost ∧ x.enterRunning.blockFollows = true
  · exact State.latch_unacted freshR notBlocked unacted
  · obtain ⟨off, other⟩ := idle.resolve_right unacted
    rw [State.latch_acted freshR notBlocked unacted]
    refine (State.actOnTrip_running c rfl).trans (if_neg ?_)
    rw [not_or, ← par] at *
    exact ⟨off, other⟩

/-- The recheck first goes to RUNNING, from where the cause leads to BYPASS (R137). -/
theorem run_then_bypass (hf : s.fit) (acts : s.par Par.byptrip = 1 ∨ c = .controlLoss)
    (acted : ¬ (c = .syncLost ∧ s.blockFollows = true)) :
    x.recheck.latch c = (x.enterRunning.withTrip c).enterBypass := by
  have par : x.enterRunning.par Par.byptrip = s.par Par.byptrip := State.par_eq_of_unit h.rest.unit _
  have follows : x.enterRunning.blockFollows = s.blockFollows :=
    (h.rest.trans x.enterRunning_rest).blockFollows
  rw [← follows] at acted
  rw [← par] at acts
  rw [State.recheck_runs (h.deblocking mode) (h.fit hf),
    State.latch_acted (s := x.enterRunning) (h.fresh hc) nofun acted]
  exact (State.actOnTrip_running c rfl).trans (if_pos acts)

end RecheckAlike

/-- A firing seen from a state whose levels, counts and messages are the same. -/
theorem Fired.of_alike {s z u : State} {t : Instant} {k : FireKind} {j : Valve} (h : Fired z u t k j)
    (sent : z.sent = s.sent) (levels : (z.valve j).levels = (s.valve j).levels)
    (count : (z.valve j).firingCount k = (s.valve j).firingCount k) : Fired s u t k j := by
  obtain ⟨⟨later, earlier, sends⟩, lastFire, lastSend, phase, counted⟩ := h
  refine ⟨⟨later, earlier, ?_⟩, lastFire, lastSend, phase, by rw [counted, count]⟩
  rw [sends, sent, State.fireSent, State.fireSent, levels]

/-- In BYPASS after the recheck led to RUNNING and cause `c` out of it (R134, R137). -/
theorem RecheckAlike.bypasses {s x : State} (h : RecheckAlike s x) (c : TripCause) :
    let u := (x.enterRunning.withTrip c).enterBypass
    u.group.mode = .bypass ∧ u.group.origin = none ∧ u.group.trips.has c = true
      ∧ (∃ l, u.group.legs = some l ∧ ∀ j ∈ l.valves, Fired s u s.timebase .bypass j)
      ∧ Posted s u .mode (modeRunning ||| modeBypass)
      ∧ ∀ l, u.word l .trip &&& c.bit = c.bit := by
  have ended := h.runs.withTrip c
  set z := x.enterRunning.withTrip c with hz
  have time : z.timebase = s.timebase := h.rest.timebase
  have held : z.group.trips.has c = true := by
    simp [hz, State.withTrip, TripSet.has_add]
  have group := z.enterBypass_group
  refine ⟨by rw [group], by rw [group], z.enterBypass_modeFrame.trips c held,
    ⟨z.chosenLegs, by rw [group], fun j hj => ?_⟩, fun l => ?_, fun l => ?_⟩
  · exact (time ▸ z.enterBypass_fired hj).of_alike h.sent (h.levels j) (h.counts j .bypass)
  · rw [z.enterBypass_word l (by simp) (by simp), if_pos rfl, ended.mode, BitVec.or_assoc]
  · refine z.enterBypass_grow.pending l .trip c.bit ?_
    rw [ended.trip]
    exact bits_or_and_self ..

/-! ## The advance and the messages (R119) -/

/-- A cause handed changes nothing, joins the set, ends a deblocking or leads to BYPASS (R136, R137). -/
theorem State.latch_cases (s : State) (c : TripCause) : s.latch c = s ∨ s.latch c = s.withTrip c
    ∨ (s.group.mode = .deblocking ∧ s.latch c = (s.withTrip c).enterBlocked.refuse .trip)
    ∨ (s.group.mode = .running ∧ s.latch c = (s.withTrip c).enterBypass) := by
  by_cases held : s.group.trips.has c = true ∨ (c = .syncLost ∧ s.group.mode = .blocked)
  · exact .inl (State.latch_held held)
  obtain ⟨fresh, blocked⟩ := not_or.1 held
  rw [Bool.not_eq_true] at fresh
  by_cases unacted : c = .syncLost ∧ s.blockFollows = true
  · exact .inr (.inl (State.latch_unacted fresh blocked unacted))
  have acted : s.latch c = (s.withTrip c).actOnTrip c := State.latch_acted fresh blocked unacted
  rcases mode : s.group.mode with _ | _ | _ | _
  · exact .inr (.inl (acted.trans (State.actOnTrip_idle c (.inl mode))))
  · exact .inr (.inr (.inl ⟨rfl, acted.trans (State.actOnTrip_deblocking c mode)⟩))
  · rw [State.actOnTrip_running (s := s.withTrip c) c mode] at acted
    split at acted
    · exact .inr (.inr (.inr ⟨rfl, acted⟩))
    · exact .inr (.inl acted)
  · exact .inr (.inl (acted.trans (State.actOnTrip_idle c (.inr mode))))

/-- A is 0, and no message has gone out but at an entry to BYPASS (R119). -/
structure Quieted (s u : State) : Prop where
  advance : u.guard.advance = 0
  sent : u.group.mode ≠ .bypass → u.sent = s.sent

theorem State.refusedBlocked_quieted (s : State) (why : RefusalReason) :
    Quieted s (s.enterBlocked.refuse why) := by
  rw [s.enterBlocked_eq]
  exact ⟨rfl, fun _ => rfl⟩

theorem State.recheck_quieted {s : State} (mode : s.group.mode = .deblocking) :
    Quieted s s.recheck := by
  rcases s.recheck_cases with ⟨-, -, e⟩ | ⟨-, why, -, e⟩ | ⟨other, -⟩
  · rw [e]
    exact ⟨rfl, fun _ => rfl⟩
  · rw [e]
    exact s.refusedBlocked_quieted why
  · exact absurd mode other

theorem State.recheck_ends (s : State) : s.recheck.group.mode ≠ .deblocking := by
  rcases s.recheck_cases with ⟨-, -, e⟩ | ⟨-, why, -, e⟩ | ⟨other, e⟩
  · rw [e]
    exact nofun
  · rw [e, State.refusedBlocked_group]
    exact nofun
  · rwa [e]

/-- The recheck and one cause, in either order. -/
theorem State.recheck_latch_quieted {s : State} (mode : s.group.mode = .deblocking) (c : TripCause) :
    Quieted s (s.latch c).recheck ∧ Quieted s (s.recheck.latch c) := by
  constructor
  · rcases s.latch_cases c with e | e | ⟨-, e⟩ | ⟨other, -⟩
    · rw [e]
      exact State.recheck_quieted mode
    · rw [e]
      obtain ⟨advance, sent⟩ := State.recheck_quieted (s := s.withTrip c) mode
      exact ⟨advance, sent⟩
    · rw [e, State.recheck_idle (by simp [State.refusedBlocked_group, Group.refused])]
      obtain ⟨advance, sent⟩ := (s.withTrip c).refusedBlocked_quieted .trip
      exact ⟨advance, sent⟩
    · simp [mode] at other
  · obtain ⟨advance, sent⟩ := State.recheck_quieted mode
    rcases s.recheck.latch_cases c with e | e | ⟨still, -⟩ | ⟨-, e⟩
    · rw [e]
      exact ⟨advance, sent⟩
    · rw [e]
      exact ⟨advance, sent⟩
    · exact absurd still s.recheck_ends
    · rw [e]
      exact ⟨(congrArg Guard.advance (State.enterBypass_guard _)).trans advance,
        fun h => absurd (State.enterBypass_mode _) h⟩

/-! ## The obligation -/

/-- Settles O11: the recheck alone, and beside one cause the order that the choice picks. -/
theorem firstReferenceRechecksDeblocking : Obligations.FirstReferenceRechecksDeblocking := by
  intro s im tref ready mode u count causes running blocked refused
  have taken := s.referenceTaken_alike im tref
  have par (f : Image → Nat) : s.par f = f im := State.par_ready ready f
  have handed : (s.referenceTaken im tref).handed = causes := by
    rw [State.referenceTaken_handed, par]
  have choices : (s.referenceTaken im tref).choices = s.choices := by
    rw [State.referenceTaken_only]
  have modeX := taken.deblocking mode
  have reference : u = (s.referenceTaken im tref).recheckAndSettle := s.handReference_eq im tref
  clear_value u
  generalize s.referenceTaken im tref = w at *
  have alone (none : causes = []) : u = w.recheck :=
    reference.trans (State.recheckAndSettle_quiet modeX (handed.trans none))
  have beside (c : TripCause) (one : causes = [c]) : u = if s.choices.headD 0 % 2 = 0
      then (w.chosen.latch c).recheck else w.chosen.recheck.latch c := by
    rw [reference, State.recheckAndSettle_single modeX (handed.trans one), choices]
  have chosen := taken.chosen
  refine ⟨fun none => ?_, fun c one => ?_, fun few => ?_⟩
  · refine ⟨fun hf => ?_, fun why hf => ?_⟩
    · have ended := alone none ▸ taken.recheck_fit mode hf
      exact ⟨ended.group, ended.mode⟩
    · have ended := alone none ▸ taken.recheck_fault mode hf
      exact ⟨ended.group, ended.mode⟩
  · intro trips causeFirst unacted
    have first (h : causeFirst) : u = (w.chosen.latch c).recheck := (beside c one).trans (if_pos h)
    have second (h : ¬ causeFirst) : u = w.chosen.recheck.latch c := (beside c one).trans (if_neg h)
    refine ⟨fun held why hf => ?_, fun hc h acted => ?_, fun hc h lost why hf => ?_,
      fun hc h => ⟨fun why hf => ?_, fun hf idle => ?_, fun hf acts acted => ?_⟩⟩
    · obtain ⟨early, late⟩ := chosen.held_fault mode held hf
      have either : u = w.chosen.enterBlocked.refuse why := by
        by_cases h : causeFirst
        · exact (first h).trans early
        · exact (second h).trans late
      have ended := either ▸ chosen.blocks why
      exact ⟨ended.group, ended.mode⟩
    · have ended := (first h).trans (chosen.cause_ends mode hc acted) ▸ chosen.trip_blocks c .trip
      exact ⟨ended.group, ended.mode, ended.trip⟩
    · have ended := (first h).trans (chosen.cause_unacted mode hc lost hf) ▸ chosen.trip_blocks c why
      exact ⟨ended.group, ended.mode, ended.trip⟩
    · have outcome := (second h).trans (chosen.fault_then_cause mode hc hf)
      split at outcome
      case isTrue lost =>
        have ended := outcome ▸ chosen.blocks why
        rw [if_pos lost, if_pos lost]
        exact ⟨ended.group, ended.mode, ended.trip⟩
      case isFalse other =>
        have ended := outcome ▸ (chosen.blocks why).withTrip c
        rw [if_neg other, if_neg other]
        exact ⟨ended.group, ended.mode, ended.trip⟩
    · have outcome := (second h).trans (chosen.run_then_cause mode hc hf (by rwa [par]))
      have ended := outcome ▸ chosen.runs.withTrip c
      exact ⟨ended.group, ended.mode, ended.trip⟩
    · have outcome := (second h).trans (chosen.run_then_bypass mode hc hf (by rwa [par]) acted)
      exact outcome ▸ chosen.bypasses c
  · rcases listed : causes with _ | ⟨c, _ | ⟨d, more⟩⟩
    · obtain ⟨advance, sent⟩ := alone listed ▸ State.recheck_quieted modeX
      exact ⟨advance, fun h => (sent h).trans taken.sent⟩
    · obtain ⟨early, late⟩ := State.recheck_latch_quieted (chosen.deblocking mode) c
      have quieted : Quieted w.chosen u := by
        rw [beside c listed]
        split
        · exact early
        · exact late
      exact ⟨quieted.advance, fun h => (quieted.sent h).trans chosen.sent⟩
    · simp [listed] at few

end Sys2Proof.Machine
end

section
/-! PROOF. The frames of a control link: the CRC bit by bit, the checks of a frame in their order, and what
a discarded frame does (R142, R143; 00_scope.md, Bytes and checks). -/

namespace Sys2Proof.Machine

open Sys2Proof

/-! ## The CRC, bit by bit -/

/-- One bit through the CRC register: the register shifts, and takes the polynomial when the bit that
leaves it differs from the one that comes. -/
def crcBit (c : Word16) (bit : Bool) : Word16 :=
  if c.msb = bit then c <<< 1 else (c <<< 1) ^^^ 0x1021#16

/-- A shift of the register with a word joined to it takes the word's first bit through the CRC and
leaves the word's other bits joined. -/
theorem crcShift_one_xor (c x : Word16) :
    crcShift 1 (c ^^^ x) = crcBit c x.msb ^^^ (x <<< 1) := by
  simp only [crcShift, crcBit, BitVec.msb_xor, BitVec.shiftLeft_xor_distrib]
  cases c.msb <;> cases x.msb <;> simp [BitVec.xor_assoc, BitVec.xor_comm (x <<< 1)]

theorem crcShift_succ (n : Nat) (c : Word16) : crcShift (n + 1) c = crcShift n (crcShift 1 c) := rfl

/-- The bits of a word joined to the register go through the CRC from the most significant one on. -/
theorem crcShift_xor (n : Nat) (c x : Word16) : crcShift n (c ^^^ x)
    = (List.range n).foldl (fun c i => crcBit c (x.getMsbD i)) c ^^^ (x <<< n) := by
  induction n generalizing c x with
  | zero => simp [crcShift]
  | succ n ih =>
    rw [crcShift_succ, crcShift_one_xor, ih, List.range_succ_eq_map, List.foldl_cons, List.foldl_map,
      ← BitVec.shiftLeft_add, Nat.add_comm 1 n]
    simp [BitVec.getMsbD_shiftLeft, BitVec.msb]

/-- A byte goes through the CRC most significant bit first. -/
theorem crcByte_eq (c : Word16) (b : Byte) : crcByte c b
    = [7, 6, 5, 4, 3, 2, 1, 0].foldl (fun c i => crcBit c (b.getLsbD i)) c := by
  have gone : b.zeroExtend 16 <<< 8 <<< 8 = 0#16 := by
    rw [← BitVec.shiftLeft_add]
    exact BitVec.shiftLeft_eq_zero (by decide)
  have bits : ∀ c : Word16, ∀ i ∈ List.range 8,
      crcBit c ((b.zeroExtend 16 <<< 8).getMsbD i) = crcBit c (b.getLsbD (7 - i)) := by
    intro c i hi
    have := List.mem_range.1 hi
    interval_cases i <;> simp [BitVec.getMsbD]
  rw [crcByte, crcShift_xor, gone, BitVec.xor_zero, List.foldl_ext _ _ c bits]
  rfl

/-! ## The checks of a frame -/

/-- Check 1 of R142: the last two bytes of a frame are the CRC of those before them, of which there is
one at least. -/
def CrcHolds (bytes : List Byte) : Prop :=
  3 ≤ bytes.length
    ∧ bytes2 (crc16 (bytes.take (bytes.length - 2))) = bytes.drop (bytes.length - 2)

theorem bytes2_inj (x y : Word16) : bytes2 x = bytes2 y ↔ x = y :=
  (bytes2_eq_iff x _ _).trans (by rw [bytes2_append])

/-- A CRC holds exactly of the bytes it closes. -/
theorem crcHolds_append (b0 : Byte) (rest : List Byte) (w : Word16) :
    CrcHolds (b0 :: rest ++ bytes2 w) ↔ crc16 (b0 :: rest) = w := by
  have length : (b0 :: rest ++ bytes2 w).length = (b0 :: rest).length + 2 := by simp
  have long : 3 ≤ (b0 :: rest).length + 2 := by simp
  rw [CrcHolds, length, Nat.add_sub_cancel, List.take_left, List.drop_left, bytes2_inj]
  exact and_iff_right long

/-- Three bytes or more are a first byte, others, and the two bytes of a word. -/
theorem exists_crc_of_length {bytes : List Byte} (h : 3 ≤ bytes.length) :
    ∃ b0 rest w, bytes = b0 :: rest ++ bytes2 w := by
  obtain ⟨hi, lo, last⟩ : ∃ hi lo, bytes.drop (bytes.length - 2) = [hi, lo] :=
    List.length_eq_two.1 (by rw [List.length_drop]; omega)
  obtain ⟨b0, rest, first⟩ : ∃ b0 rest, bytes.take (bytes.length - 2) = b0 :: rest :=
    List.exists_cons_of_length_pos (by rw [List.length_take]; omega)
  refine ⟨b0, rest, hi ++ lo, ?_⟩
  rw [(bytes2_eq_iff (hi ++ lo) hi lo).2 rfl, ← first, ← last, List.take_append_drop]

/-- The length and the kind of the shortest frame that has a CRC fit no layout. -/
theorem shapePasses_three (b0 b1 : Byte) : shapePasses b0 b1 3 = false := by
  have none_three (code : BitVec 4) : serviceLength code ≠ some 3 := by
    unfold serviceLength
    split <;> simp
  unfold shapePasses
  split
  · rfl
  · split
    · simpa using none_three _
    · rfl

/-- A frame whose CRC fails is an error. -/
theorem checkFrame_crcFails {bytes : List Byte} (h : ¬ CrcHolds bytes) (g : Option Nat) :
    checkFrame g bytes = .error := by
  by_cases long : 3 ≤ bytes.length
  · obtain ⟨b0, rest, w, rfl⟩ := exists_crc_of_length long
    rw [crcHolds_append] at h
    simp only [checkFrame, splitCrc_bytes2, if_neg h]
  · rcases bytes with _ | ⟨b0, _ | ⟨b1, _ | ⟨b2, rest⟩⟩⟩
    · rfl
    · rfl
    · rfl
    · exact absurd (by simp) long

/-- A frame whose CRC holds meets the other checks in their order. -/
theorem checkFrame_crcHolds {bytes : List Byte} (h : CrcHolds bytes) (g : Option Nat) :
    checkFrame g bytes =
      if addressPasses g (bytes.getD 0 0) then
        if shapePasses (bytes.getD 0 0) (bytes.getD 1 0) bytes.length then .valid else .error
      else .foreign := by
  obtain ⟨b0, rest, w, rfl⟩ := exists_crc_of_length h.1
  rw [crcHolds_append] at h
  have shape : shapePasses b0 (rest.headD 0) (b0 :: rest ++ bytes2 w).length
      = shapePasses b0 ((b0 :: rest ++ bytes2 w).getD 1 0) (b0 :: rest ++ bytes2 w).length := by
    rcases rest with _ | ⟨b1, rest⟩
    · exact (shapePasses_three b0 _).trans (shapePasses_three b0 _).symm
    · rfl
  simp only [checkFrame, splitCrc_bytes2, shape, if_pos h]
  rfl

theorem checkFrame_foreign_iff (g : Option Nat) (bytes : List Byte) :
    checkFrame g bytes = .foreign ↔ CrcHolds bytes ∧ ¬ addressPasses g (bytes.getD 0 0) = true := by
  by_cases crc : CrcHolds bytes
  · rw [checkFrame_crcHolds crc]
    split_ifs <;> simp only [*, reduceCtorEq, not_true, and_false, not_false_eq_true, and_self]
  · simp [checkFrame_crcFails crc, crc]

theorem checkFrame_valid_iff (g : Option Nat) (bytes : List Byte) :
    checkFrame g bytes = .valid ↔ CrcHolds bytes ∧ addressPasses g (bytes.getD 0 0) = true
      ∧ shapePasses (bytes.getD 0 0) (bytes.getD 1 0) bytes.length = true := by
  by_cases crc : CrcHolds bytes
  · rw [checkFrame_crcHolds crc]
    split_ifs <;> simp only [*, reduceCtorEq, and_false, false_and, and_self]
  · simp [checkFrame_crcFails crc, crc]

/-! ## The address and the shape of a frame, bit by bit -/

/-- A mask of low bits and the field of those bits are one number. -/
theorem toNat_low_bits (b : Byte) {n : Nat} (hn : n ≤ 8) :
    (b &&& BitVec.ofNat 8 (2 ^ n - 1)).toNat = (b.extractLsb' 0 n).toNat := by
  have mask : 2 ^ n - 1 < 2 ^ 8 := by
    have := Nat.pow_le_pow_right (n := 2) (by decide) hn
    have := Nat.two_pow_pos n
    omega
  rw [BitVec.toNat_and, BitVec.toNat_ofNat, Nat.mod_eq_of_lt mask, Nat.and_two_pow_sub_one_eq_mod,
    BitVec.extractLsb'_toNat, Nat.shiftRight_zero]

/-- The two low bits of a byte, masked and as a field. -/
theorem low_two_eq_iff (b : Byte) (k : BitVec 2) :
    b &&& 3#8 = k.zeroExtend 8 ↔ b.extractLsb' 0 2 = k := by
  have masked : (b &&& 3#8).toNat = (b.extractLsb' 0 2).toNat :=
    toNat_low_bits b (n := 2) (by decide)
  rw [← BitVec.toNat_inj, ← BitVec.toNat_inj, masked, BitVec.toNat_setWidth,
    Nat.mod_eq_of_lt (by have := k.isLt; omega)]

theorem addressPasses_eq_true (g : Option Nat) (b : Byte) :
    addressPasses g b = true ↔ ∀ a, g = some a → (b >>> 2).toNat = a := by
  have field : (b.extractLsb' 2 6).toNat = (b >>> 2).toNat := by
    rw [BitVec.extractLsb'_toNat, BitVec.toNat_ushiftRight, Nat.shiftRight_eq_div_pow]
    have := b.isLt
    omega
  cases g with
  | none => simp [addressPasses]
  | some a => simp [addressPasses, field]

theorem serviceLength_eq_some (code : BitVec 4) (n : Nat) : serviceLength code = some n ↔
    (n = 6 ∧ code.toNat ∈ [1, 3, 5, 6, 7, 8]) ∨ (n = 5 ∧ code.toNat = 2) ∨ (n = 8 ∧ code.toNat = 4)
      ∨ (n = 22 ∧ code.toNat = 9) ∨ (n = 4 ∧ code.toNat ∈ [10, 11, 12]) := by
  unfold serviceLength
  generalize code.toNat = c
  split
  case h_13 => simp_all
  all_goals simp [eq_comm]

/-- Checks 3 to 5 of R142: the kind, the length it fixes, and an ORDER frame's requested mode. -/
theorem shapePasses_iff (b0 b1 : Byte) (n : Nat) : shapePasses b0 b1 n = true ↔
    ((b0 &&& 3#8) = 0#8 ∧ n = 6 ∧ (b1 &&& 3#8) ≠ 3#8)
    ∨ ((b0 &&& 3#8) = 1#8 ∧ serviceLength (b1.extractLsb' 0 4) = some n) := by
  have order : (b0 &&& 3#8) = 0#8 ↔ b0.extractLsb' 0 2 = orderKind := low_two_eq_iff b0 orderKind
  have service : (b0 &&& 3#8) = 1#8 ↔ b0.extractLsb' 0 2 = serviceKind :=
    low_two_eq_iff b0 serviceKind
  have mode : (b1 &&& 3#8) = 3#8 ↔ b1.extractLsb' 0 2 = 3#2 := low_two_eq_iff b1 3
  rw [order, service, ne_eq, mode, shapePasses]
  split
  case isTrue kind => simp [kind, orderKind, serviceKind]
  case isFalse kind =>
    split
    · simp_all
    · simp_all

/-! ## A discarded frame (R142) -/

/-- Bytes that fail a check are counted and posted alike, whatever they spell. -/
theorem State.receiveBytes_discarded {s : State} {bytes : List Byte}
    (h : checkFrame s.gaddr bytes ≠ .valid) (l : Link) :
    s.receiveBytes l bytes = s.receive l bytes .standby id := by
  have alike (r : Role) (serve : State → State) :
      s.receive l bytes r serve = s.receive l bytes .standby id := by
    unfold State.receive
    split
    · rfl
    · rfl
    · exact absurd (by assumption) h
  unfold State.receiveBytes
  split
  · exact alike ..
  · split <;> exact alike ..

/-- The bytes of an ORDER frame arrive as that frame (assumption 9). -/
theorem exec_discardedFrameArrives_orderBytes (s : State) (t : Instant) (l : Link) (f : OrderFrame) :
    exec (.discardedFrameArrives t l (orderBytes f)) s = exec (.orderFrame t l f) s := by
  have received : State.receiveBytes l (orderBytes f)
      = State.receive l (orderBytes f) f.role (State.serveOrder l f) := by
    funext u
    simp only [State.receiveBytes, readOrder_orderBytes]
  exact congrArg (s.atTick t) received

/-- Settles O40, by the CRC bit by bit, the checks in their order, and the two ways a frame is
discarded. -/
theorem framesAreChecked : Obligations.FramesAreChecked := by
  refine ⟨⟨rfl, fun bytes b => ?_, fun w => rfl⟩, fun g bytes => ?_, fun s t l bytes f live => ?_⟩
  · rw [crc16, List.foldl_append]
    exact crcByte_eq (crc16 bytes) b
  · intro crcHolds b0 b1 addressHolds code shapeHolds
    have address : addressPasses g b0 = true ↔ addressHolds := addressPasses_eq_true g b0
    have codes : (b1.extractLsb' 0 4).toNat = code := (toNat_low_bits b1 (n := 4) (by decide)).symm
    have shape : shapePasses b0 b1 bytes.length = true ↔ shapeHolds := by
      rw [shapePasses_iff, serviceLength_eq_some, codes]
    rw [← address, ← shape]
    exact ⟨checkFrame_foreign_iff g bytes, checkFrame_valid_iff g bytes⟩
  · intro foreign error
    have arrives (bytes : List Byte) : exec (.discardedFrameArrives t l bytes) s
        = .next ((s.atInstant t).receiveBytes l bytes) := State.atTick_live live t _
    have isForeign {bytes : List Byte} (h : checkFrame s.gaddr bytes = .foreign) :
        exec (.discardedFrameArrives t l bytes) s = .next foreign := by
      have h : checkFrame (s.atInstant t).gaddr bytes = .foreign := h
      rw [arrives, State.receiveBytes_discarded (h ▸ nofun), State.receive_foreign h]
      rfl
    have isError {bytes : List Byte} (h : checkFrame s.gaddr bytes = .error) :
        exec (.discardedFrameArrives t l bytes) s = .next error := by
      have h : checkFrame (s.atInstant t).gaddr bytes = .error := h
      rw [arrives, State.receiveBytes_discarded (h ▸ nofun), State.receive_error h]
      rfl
    rw [← exec_discardedFrameArrives_orderBytes]
    exact ⟨isForeign, isError, isForeign, isError⟩

end Sys2Proof.Machine
end

section
/-! PROOF. The layouts of the frames that arrive: they read back, and pass the checks exactly when their CRC
and address are right (R142, R143; Frame layouts, Service frames and replies). -/

namespace Sys2Proof.Machine

open Sys2Proof

/-! ## A request reads back -/

/-- The words that bytes of words spell. -/
theorem wordsOf_flatMap_bytes2 (ws : List Word16) : wordsOf (ws.flatMap bytes2) = ws := by
  induction ws with
  | nil => rfl
  | cons w ws ih =>
    rw [List.flatMap_cons]
    exact congrArg₂ List.cons (bytes2_append w) ih

/-- A request reads back from its code and its argument bytes. -/
theorem readRequest_args (r : Request) : readRequest r.code r.args = some r := by
  cases r with
  | walk since => exact congrArg (fun w => some (Request.walk w)) (bytes4_append since)
  | configWrite a n data =>
    have words : (Vector.ofFn fun i : Fin 8 => (wordsOf (data.toList.flatMap bytes2)).getD i.val 0)
        = data := by
      ext i hi
      simp [wordsOf_flatMap_bytes2]
    exact congrArg (fun d => some (Request.configWrite a n d)) words
  | _ => rfl

/-- The fields of byte 1 of a SERVICE frame read back. -/
theorem serviceByte1_fields (r : Role) (x : BitVec 3) (c : BitVec 4) :
    let b : Byte := roleBit r ++ x ++ c
    roleOf b.msb = r ∧ b.extractLsb' 4 3 = x ∧ b.extractLsb' 0 4 = c := by
  intro b
  refine ⟨?_, BitVec.eq_of_getLsbD_eq fun i hi => ?_, BitVec.extractLsb'_append_eq_right⟩
  · have msb : b.msb = (roleBit r).msb := by
      rw [BitVec.msb_append, if_neg (by decide), BitVec.msb_append, if_neg (by decide)]
    rw [msb, roleOf_roleBit]
  · rw [BitVec.getLsbD_extractLsb', BitVec.getLsbD_append, BitVec.getLsbD_append]
    interval_cases i <;> simp

/-- The bytes of a SERVICE frame before its CRC, and its CRC. -/
theorem serviceBytes_eq (h : ServiceHead) (r : Request) : serviceBytes h r
    = (h.address ++ serviceKind) :: ((roleBit h.role ++ h.spare ++ r.code) :: r.args)
      ++ bytes2 h.crc := rfl

theorem readService_serviceBytes (h : ServiceHead) (r : Request) :
    readService (serviceBytes h r) = some (h, r) := by
  obtain ⟨role, spare, code⟩ := serviceByte1_fields h.role h.spare r.code
  have split : splitCrc (serviceBytes h r)
      = some ((h.address ++ serviceKind) :: (roleBit h.role ++ h.spare ++ r.code) :: r.args, h.crc) := by
    rw [serviceBytes_eq]
    exact splitCrc_bytes2 _ h.crc
  simp only [readService, split, append_kind, append_address, if_true, role, spare, code,
    readRequest_args, Option.map_some]

/-! ## The checks of a frame that is sent (R142, R143) -/

theorem serviceIntact_iff (h : ServiceHead) (r : Request) :
    serviceIntact h r ↔ CrcHolds (serviceBytes h r) := by
  have body : (serviceBytes h r).take (2 + r.args.length)
      = (h.address ++ serviceKind) :: ((roleBit h.role ++ h.spare ++ r.code) :: r.args) := by
    rw [serviceBytes_eq]
    exact List.take_left' (by simp; omega)
  rw [serviceIntact, body, serviceBytes_eq, crcHolds_append, eq_comm]

/-- A SERVICE frame passes the checks exactly when its CRC and its address are right. -/
theorem checkFrame_serviceBytes_iff (s : State) (h : ServiceHead) (r : Request) :
    checkFrame s.gaddr (serviceBytes h r) = .valid ↔ serviceIntact h r ∧ s.addressed h.address := by
  refine ⟨fun valid => ?_, fun ⟨intact, addressed⟩ => checkFrame_serviceBytes intact addressed⟩
  obtain ⟨crc, address, -⟩ := (checkFrame_valid_iff _ _).1 valid
  exact ⟨(serviceIntact_iff h r).2 crc, (s.addressPasses_iff h.address serviceKind).1 address⟩

/-! ## Bytes that arrive as a frame -/

/-- The bytes of a SERVICE frame arrive as its request (assumption 9). -/
theorem exec_discardedFrameArrives_serviceBytes (s : State) (t : Instant) (l : Link)
    (h : ServiceHead) (r : Request) :
    exec (.discardedFrameArrives t l (serviceBytes h r)) s = exec (r.command t l h) s := by
  have received : State.receiveBytes l (serviceBytes h r)
      = State.receive l (serviceBytes h r) h.role (State.serveRequest l h r) := by
    funext u
    simp only [State.receiveBytes, readOrder_serviceBytes, readService_serviceBytes]
  have served : exec (r.command t l h) s
      = s.atTick t (State.receive l (serviceBytes h r) h.role (State.serveRequest l h r)) := by
    cases r <;> rfl
  rw [served]
  exact congrArg (s.atTick t) received

theorem roleBit_eq (r : Role) : roleBit r = if r = .active then 1 else 0 := by cases r <;> rfl

/-- Settles O41, by the two layouts, their reading back, and the checks on each. -/
theorem framesReadBack : Obligations.FramesReadBack := by
  refine ⟨fun f => ?_, fun h r => ?_, readOrder_orderBytes, readService_serviceBytes,
    fun s f => ?_, checkFrame_serviceBytes_iff, exec_discardedFrameArrives_orderBytes,
    exec_discardedFrameArrives_serviceBytes⟩
  · intro role
    have claimed : role = roleBit f.role := (roleBit_eq f.role).symm
    rw [claimed]
    rfl
  · intro role frame
    have claimed : role = roleBit h.role := (roleBit_eq h.role).symm
    have layout : serviceBytes h r = frame r.code r.args := by
      simp only [frame, claimed]
      rfl
    rw [layout]
    cases r <;> rfl
  · rw [checkFrame_orderBytes, State.addressPasses_iff]

end Sys2Proof.Machine
end

section
/-! PROOF. Replies: where one goes, which word a status frame takes, and what follows a reply that has been
sent (R150, R151, R153, R155, R157). -/

namespace Sys2Proof.Machine

open Sys2Proof

/-! ## The highest-priority word (R153) -/

section
variable {k : LinkState} {src : Source}

/-- The word at the top is the pending one above which no other is pending. -/
theorem LinkState.topWord_eq_some_iff (pending : k.pendingWord src ≠ 0) :
    k.topWord = some (src, k.pendingWord src)
      ↔ ∀ src', src'.code < src.code → k.pendingWord src' = 0 := by
  refine ⟨fun top => (LinkState.topWord_some top).2.2, fun above => ?_⟩
  rcases top : k.topWord with _ | ⟨first, w⟩
  · exact absurd (k.topWord_none.1 top src) pending
  · obtain ⟨word, nonzero, clear⟩ := LinkState.topWord_some top
    have same : first = src := by
      rcases lt_trichotomy first.code src.code with before | same | behind
      · exact absurd (above first before) (word ▸ nonzero)
      · exact Source.code_injective same
      · exact absurd (clear src behind) pending
    rw [word, same]

/-- Taking the top word out of a set moves nothing else of the link. -/
theorem LinkState.dropTopWord_frame (k : LinkState) :
    k.dropTopWord = { k with attention := k.dropTopWord.attention } := by
  unfold LinkState.dropTopWord
  split <;> rfl

theorem LinkState.dropTopWord_top {w : BitVec 12} (top : k.topWord = some (src, w)) :
    k.dropTopWord.pendingWord src = 0 := by
  simp [LinkState.dropTopWord, top, LinkState.pendingWord]

theorem LinkState.dropTopWord_other (other : ∀ w, k.topWord ≠ some (src, w)) :
    k.dropTopWord.pendingWord src = k.pendingWord src := by
  rcases top : k.topWord with _ | ⟨first, w⟩
  · simp [LinkState.dropTopWord, top]
  · have apart : first ≠ src := fun same => other w (same ▸ top)
    have places : (first.code : Nat) ≠ src.code := fun same =>
      apart (Source.code_injective (Fin.ext same))
    simp [LinkState.dropTopWord, top, LinkState.pendingWord, places]

end

/-! ## The line and the queue (R151) -/

/-- A reply goes on a free line. -/
theorem LinkState.enqueue_free {k : LinkState} (free : k.onLine = none) (r : Reply) :
    k.enqueue r = { k with onLine := some r } := by
  simp [LinkState.enqueue, free]

/-- A reply waits behind the one on the line. -/
theorem LinkState.enqueue_busy {k : LinkState} (busy : k.onLine.isSome) (r : Reply) :
    k.enqueue r = { k with waiting := k.waiting ++ [r] } := by
  obtain ⟨line, h⟩ := Option.isSome_iff_exists.1 busy
  simp [LinkState.enqueue, h]

theorem LinkState.enqueue_eq (k : LinkState) (r : Reply) : k.enqueue r = { k with
    onLine := if k.onLine = none then some r else k.onLine
    waiting := if k.onLine = none then k.waiting else k.waiting ++ [r] } := by
  by_cases free : k.onLine = none
  · rw [LinkState.enqueue_free free, if_pos free, if_pos free]
  · rw [LinkState.enqueue_busy (Option.isSome_iff_ne_none.2 free), if_neg free, if_neg free]

theorem LinkState.replyFull_iff (k : LinkState) : k.replyFull = true ↔ 2 ≤ k.waiting.length := by
  simp [LinkState.replyFull]

/-- A change of a link is a change of the link as it is. -/
theorem State.modLink_congr {s : State} {l : Link} {f g : LinkState → LinkState}
    (h : f (s.link l) = g (s.link l)) : s.modLink l f = s.modLink l g := by
  cases l
  · exact congrArg (fun k => { s with linkA := k }) h
  · exact congrArg (fun k => { s with linkB := k }) h

section
variable {s : State} {l : Link}

theorem State.replyStatus_full (full : 2 ≤ (s.link l).waiting.length) (a : BitVec 6) :
    s.replyStatus l a = s.modLink l LinkState.dropReply :=
  if_pos ((s.link l).replyFull_iff.2 full)

theorem State.replyStatus_room (room : (s.link l).waiting.length < 2) (a : BitVec 6) :
    s.replyStatus l a
      = s.modLink l fun k => k.dropTopWord.enqueue (.status (s.statusFrame l a)) :=
  if_neg fun full => absurd ((s.link l).replyFull_iff.1 full) (by omega)

theorem State.replyService_full (full : 2 ≤ (s.link l).waiting.length) (a : BitVec 6)
    (code : BitVec 4) (result : ServiceResult) (data : List Byte) :
    s.replyService l a code result data = s.modLink l LinkState.dropReply :=
  if_pos ((s.link l).replyFull_iff.2 full)

/-- With room a service reply goes where the line has it, and takes the stored result with it. -/
theorem State.replyService_room (room : (s.link l).waiting.length < 2) {a : BitVec 6}
    {code : BitVec 4} {result : ServiceResult} {data : List Byte} {queue : LinkState → LinkState}
    (queued : (s.link l).enqueue (.service
        { address := s.replyAddress a, code := code, stored := s.stored, result := result
          counter := s.counter, data := data }) = queue (s.link l)) :
    s.replyService l a code result data = { s.modLink l queue with stored := .none } := by
  rw [← State.modLink_congr (f := (·.enqueue (.service _))) queued]
  exact if_neg fun full => absurd ((s.link l).replyFull_iff.1 full) (by omega)

/-- The attention set that a status frame leaves behind is its link's, less the top word. -/
theorem State.replyStatus_attention (room : (s.link l).waiting.length < 2) (a : BitVec 6) :
    ((s.replyStatus l a).link l).attention = (s.link l).dropTopWord.attention := by
  rw [State.replyStatus_room room, State.modLink_link, if_pos rfl, LinkState.enqueue_eq]

theorem State.replyStatus_word (room : (s.link l).waiting.length < 2) (a : BitVec 6) (src : Source) :
    (s.replyStatus l a).word l src = (s.link l).dropTopWord.pendingWord src :=
  congrArg (fun set : Vector (BitVec 12) Config.sourceCount => set[src.code])
    (State.replyStatus_attention room a)

end

/-! ## A reply that has been sent (R151) -/

section
variable {s : State} {l : Link} (live : s.live) (t : Instant)
include live

theorem exec_replySent_free (free : (s.link l).onLine = none) :
    exec (.replySent t l) s = .next (s.atInstant t) := by
  have sends : exec (.replySent t l) s = execReplySent t l s := rfl
  rw [sends, execReplySent, State.atTick_live live]
  simp only [State.link_atInstant, free]

/-- The reply on the line leaves, and the next goes on it. -/
theorem exec_replySent_line {r : Reply} (line : (s.link l).onLine = some r) :
    exec (.replySent t l) s = .next { (s.atInstant t).modLink l fun k =>
        { k with onLine := k.waiting.head?, waiting := k.waiting.tail } with
        sent := .reply l r.bytes :: s.sent } := by
  have sends : exec (.replySent t l) s = execReplySent t l s := rfl
  rw [sends, execReplySent, State.atTick_live live]
  simp only [State.link_atInstant, State.atInstant_sent, line]

end

/-- Settles O44, by the room in the queue, the line, and the word at the top. -/
theorem repliesQueueInOrder : Obligations.RepliesQueueInOrder := by
  intro s t l a code result data k dropped reply
  refine ⟨fun full => ⟨State.replyStatus_full full a, State.replyService_full full a code result data⟩,
    fun room free => ?_, fun room busy => ?_, fun room => ?_,
    fun live _ line => exec_replySent_line live t line,
    fun live free => exec_replySent_free live t free⟩
  · exact State.replyService_room (queue := fun k => { k with onLine := some reply }) room
      (LinkState.enqueue_free free reply)
  · exact State.replyService_room (queue := fun k => { k with waiting := k.waiting ++ [reply] }) room
      (LinkState.enqueue_busy busy reply)
  · refine ⟨s.statusFrame l a, ?_, rfl, fun src => ?_, (s.link l).topWord_none, fun src w top => ?_,
      fun src other => ?_⟩
    · rw [State.replyStatus_attention room, State.replyStatus_room room]
      refine State.modLink_congr ?_
      rw [LinkState.enqueue_eq, LinkState.dropTopWord_frame]
    · rw [and_comm]
      exact and_congr_right fun pending => LinkState.topWord_eq_some_iff pending
    · rw [State.replyStatus_word room]
      exact LinkState.dropTopWord_top top
    · rw [State.replyStatus_word room]
      exact LinkState.dropTopWord_other other

end Sys2Proof.Machine
end

section
/-! PROOF. The layout of a status frame: its head, the summaries of the valves, the attention word, and the
CRC at its end (R150, R152, R153; Frame layouts). -/

namespace Sys2Proof.Machine

open Sys2Proof

/-! ## Fields of several bytes -/

/-- A 32-bit field stands as two words. -/
theorem bytes4_eq (w : Instant) :
    bytes4 w = bytes2 (w.extractLsb' 16 16) ++ bytes2 (w.extractLsb' 0 16) := by
  have byte {start : Nat} (n : Nat) (inside : n + 8 ≤ 16) :
      (w.extractLsb' start 16).extractLsb' n 8 = w.extractLsb' (start + n) 8 := by
    refine BitVec.eq_of_getLsbD_eq fun i hi => ?_
    simp [hi, show n + i < 16 by omega, Nat.add_assoc]
  simp [bytes4, bytes2, byte]

/-- In a sequence of words each word stands at twice its index. -/
theorem drop_flatMap_bytes2 {words : List Word16} {n : Nat} {w : Word16} (h : words[n]? = some w) :
    ∃ rest, (words.flatMap bytes2).drop (2 * n) = bytes2 w ++ rest := by
  induction words generalizing n with
  | nil => cases h
  | cons first words ih =>
    cases n with
    | zero =>
      obtain rfl : first = w := Option.some.inj h
      exact ⟨words.flatMap bytes2, rfl⟩
    | succ n => exact ih h

/-! ## The parts of a status frame -/

/-- The first five bytes of a status frame, the fields of single bits and bytes. -/
def StatusFrame.opening (f : StatusFrame) : List Byte :=
  [f.address ++ statusKind, f.unitCode ++ f.mode.code ++ f.sync.code ++ f.cause.code,
   linkBit f.sel ++ roleBit f.roleA ++ roleBit f.roleB ++ flag f.silentA ++ flag f.silentB
     ++ refusalCode f.refusal,
   f.trips.bits ++ (0 : BitVec 3), refusalValve f.refusal]

/-- The two bytes of a valve summary as a word. -/
def Summary.word (v : Summary) : Word16 :=
  BitVec.ofNat 7 v.failed ++ BitVec.ofNat 7 v.unproven ++ v.margin.code

/-- The words that follow: the group's values, the summaries, the attention word. -/
def StatusFrame.words (f : StatusFrame) : List Word16 :=
  BitVec.ofNat 16 f.advance :: gammaWord f.gammaLow :: f.cycle :: BitVec.ofNat 16 f.disturbances
    :: BitVec.ofNat 16 f.errors :: BitVec.ofNat 16 f.foreign
    :: (BitVec.ofNat 32 f.counter).extractLsb' 16 16 :: (BitVec.ofNat 32 f.counter).extractLsb' 0 16
    :: (f.summaries.map Summary.word ++ [attentionWord f.attention])

/-- A status frame is its opening, its words, and the CRC of both. -/
theorem StatusFrame.bytes_eq (f : StatusFrame) :
    f.bytes = withCrc (f.opening ++ f.words.flatMap bytes2) := by
  have summaries : f.summaries.flatMap Summary.bytes
      = (f.summaries.map Summary.word).flatMap bytes2 := by
    rw [List.flatMap_map]
    rfl
  rw [StatusFrame.bytes, summaries]
  simp only [StatusFrame.opening, StatusFrame.words, countBytes2, countBytes4, bytes4_eq,
    List.flatMap_cons, List.flatMap_append, List.flatMap_nil, List.append_nil, List.append_assoc]

/-- Each word of a status frame stands at its place from byte 5 on. -/
theorem StatusFrame.word_at (f : StatusFrame) {n : Nat} {w : Word16} (h : f.words[n]? = some w) :
    (f.bytes.getD (5 + 2 * n) 0 ++ f.bytes.getD (5 + 2 * n + 1) 0 : BitVec (8 + 8)) = w := by
  set crc := crc16 (f.opening ++ f.words.flatMap bytes2)
  have bytes : f.bytes = f.opening ++ (f.words ++ [crc]).flatMap bytes2 := by
    rw [StatusFrame.bytes_eq, withCrc, List.flatMap_append, List.flatMap_singleton, List.append_assoc]
  have listed : (f.words ++ [crc])[n]? = some w := by
    rw [List.getElem?_append_left (List.getElem?_eq_some_iff.1 h).1, h]
  obtain ⟨rest, found⟩ := drop_flatMap_bytes2 listed
  have opening : f.opening.length = 5 := rfl
  have byte (i : Nat) : f.bytes.getD (5 + 2 * n + i) 0 = (bytes2 w ++ rest).getD i 0 := by
    rw [← found, ← opening, bytes, List.getD_eq_getElem?_getD, List.getD_eq_getElem?_getD,
      List.getElem?_drop, Nat.add_assoc, List.getElem?_append_right (Nat.le_add_right ..),
      Nat.add_sub_cancel_left]
  have high : f.bytes.getD (5 + 2 * n) 0 = w.extractLsb' 8 8 := byte 0
  have low : f.bytes.getD (5 + 2 * n + 1) 0 = w.extractLsb' 0 8 := byte 1
  rw [high, low, bytes2_append]

section
variable (s : State) (l : Link) (a : BitVec 6)

/-- The word of each valve's summary, in order. -/
def State.summaryWords (s : State) : List Word16 := allValves.map fun j =>
  BitVec.ofNat 7 (s.valve j).failed ++ BitVec.ofNat 7 (s.valve j).unproven
    ++ (s.valve j).monitor.margin.code

theorem State.summaryWords_length : s.summaryWords.length = 12 := by
  rw [State.summaryWords, List.length_map, allValves, List.length_finRange]

/-- After the eight words of the group come the summaries and the attention word. -/
theorem State.statusFrame_words_drop : (s.statusFrame l a).words.drop 8
    = s.summaryWords ++ [attentionWord (s.link l).topWord] := by
  have summaries : (s.statusFrame l a).summaries.map Summary.word = s.summaryWords := List.map_map
  rw [← summaries]
  rfl

theorem State.statusFrame_words_length : (s.statusFrame l a).words.length = 21 := by
  have dropped := congrArg List.length (s.statusFrame_words_drop l a)
  rw [List.length_drop, List.length_append, s.summaryWords_length] at dropped
  simp only [List.length_singleton] at dropped
  omega

/-- The summary of valve `j`, counted from 0, is word 8 + j. -/
theorem State.statusFrame_summary (j : Valve) : (s.statusFrame l a).words[8 + j.val]?
    = some (BitVec.ofNat 7 (s.valve j).failed ++ BitVec.ofNat 7 (s.valve j).unproven
        ++ (s.valve j).monitor.margin.code) := by
  have inside : j.val < s.summaryWords.length := s.summaryWords_length ▸ j.isLt
  rw [← List.getElem?_drop, State.statusFrame_words_drop, List.getElem?_append_left inside]
  simp [State.summaryWords, allValves]

/-- The attention word is the last before the CRC. -/
theorem State.statusFrame_attention :
    (s.statusFrame l a).words[20]? = some (attentionWord (s.link l).topWord) := by
  rw [← List.getElem?_drop (i := 8) (j := 12), State.statusFrame_words_drop,
    List.getElem?_append_right s.summaryWords_length.le, s.summaryWords_length]
  rfl

/-- A status frame has 49 bytes, and the last two are the CRC of the others. -/
theorem State.statusFrame_crc : (s.statusFrame l a).bytes.length = 49
    ∧ bytes2 (crc16 ((s.statusFrame l a).bytes.take 47)) = (s.statusFrame l a).bytes.drop 47 := by
  have length : ((s.statusFrame l a).opening ++ (s.statusFrame l a).words.flatMap bytes2).length = 47 := by
    simp [List.length_flatMap, State.statusFrame_words_length, StatusFrame.opening]
  rw [StatusFrame.bytes_eq, withCrc_length, length, withCrc, List.take_left' length,
    List.drop_left' length]
  exact ⟨rfl, rfl⟩

end

/-! ## The codes of a status frame -/

theorem roleBit_eq_ofBool (r : Role) : roleBit r = BitVec.ofBool (decide (r = .active)) := by
  cases r <;> rfl

theorem linkBit_eq_ofBool (l : Link) : linkBit l = BitVec.ofBool (decide (l = .b)) := by
  cases l <;> rfl

/-- The valve index of a refusal is that of READINESS, and 0 with every other. -/
theorem refusalValve_readiness (j : Valve) :
    (refusalValve (some (.readiness j))).toNat = j.val + 1 := by
  have : j.val < 12 := j.isLt
  rw [refusalValve, byteOf, BitVec.toNat_ofNat, Nat.mod_eq_of_lt (by omega)]

theorem refusalValve_other {r : Option RefusalReason} (h : ∀ j, r ≠ some (.readiness j)) :
    refusalValve r = 0 := by
  unfold refusalValve
  split
  · exact absurd rfl (h _)
  · rfl

theorem State.replyAddress_ready {s : State} {im : Image} (h : s.unit = .ready im) (a : BitVec 6) :
    s.replyAddress a = BitVec.ofNat 6 (Par.gaddr im) := by
  simp only [State.replyAddress, h]

theorem State.replyAddress_unready {s : State} (h : s.isReady = false) (a : BitVec 6) :
    s.replyAddress a = a := by
  unfold State.replyAddress
  split
  · rename_i ready
    rw [State.isReady_ready ready] at h
    cases h
  · rfl

/-- Settles O45, field by field: each is a byte at its place, or a word that two bytes there spell. -/
theorem statusFrameIsLaidOut : Obligations.StatusFrameIsLaidOut := by
  refine ⟨fun c => by cases c <;> rfl, rfl, rfl, rfl, rfl, fun s l a => ?_⟩
  intro f b at2 bit active unit mode sync cause refusal trips
  have unitCode : s.unit.code = unit := by cases h : s.unit <;> simp only [unit, h] <;> rfl
  have modeCode : s.group.mode.code = mode := by cases h : s.group.mode <;> simp only [mode, h] <;> rfl
  have syncCode : s.tracker.sync.code = sync := by
    cases h : s.tracker.sync <;> simp only [sync, h] <;> rfl
  have causeCode : s.startCause.code = cause := by cases h : s.startCause <;> simp only [cause, h] <;> rfl
  have refused : refusalCode s.group.refusal = refusal := by
    rcases h : s.group.refusal with _ | _ | _ | _ | _ | _ <;> simp only [refusal, h] <;> rfl
  obtain ⟨length, crc⟩ := s.statusFrame_crc l a
  refine ⟨length, crc, fun im ready => ?_, fun unready => ?_, ?_, ?_, rfl, fun j h => ?_, fun h => ?_,
    f.word_at (n := 0) rfl, ?_, f.word_at (n := 2) rfl, f.word_at (n := 3) rfl, f.word_at (n := 4) rfl,
    f.word_at (n := 5) rfl, ?_, fun j => ?_, fun empty => ?_, fun src w carried => ?_⟩
  · exact congrArg (· ++ statusKind) (State.replyAddress_ready ready a)
  · exact congrArg (· ++ statusKind) (State.replyAddress_unready unready a)
  · rw [← unitCode, ← modeCode, ← syncCode, ← causeCode]
    rfl
  · rw [← refused]
    simp only [bit, active, ← roleBit_eq_ofBool, ← linkBit_eq_ofBool]
    rfl
  · exact (congrArg (fun r => (refusalValve r).toNat) h).trans (refusalValve_readiness j)
  · exact refusalValve_other h
  · refine (f.word_at (n := 1) (w := gammaWord s.guard.reportedLow) rfl).trans ?_
    cases s.guard.reportedLow <;> rfl
  · have high : at2 17 = (BitVec.ofNat 32 s.counter).extractLsb' 16 16 := f.word_at (n := 6) rfl
    have low : at2 19 = (BitVec.ofNat 32 s.counter).extractLsb' 0 16 := f.word_at (n := 7) rfl
    rw [high, low, BitVec.extractLsb'_append_extractLsb'_eq_extractLsb' (by decide : 16 = 0 + 16)]
    exact BitVec.extractLsb'_eq_self
  · have place : 21 + 2 * j.val = 5 + 2 * (8 + j.val) := by omega
    rw [place]
    refine (f.word_at (s.statusFrame_summary l a j)).trans ?_
    cases (s.valve j).monitor.margin <;> rfl
  · exact (f.word_at (s.statusFrame_attention l a)).trans (congrArg attentionWord empty)
  · refine (f.word_at (s.statusFrame_attention l a)).trans ((congrArg attentionWord carried).trans ?_)
    rcases src with _ | _ | _ | _ | j
    case valve =>
      have code : (Source.valve j).code.val = 3 + (j.val + 1) := by
        show 4 + j.val = _
        omega
      rw [attentionWord, code]
    all_goals rfl

end Sys2Proof.Machine
end

section
/-! PROOF. What the links and the no-action limit do: a valid frame heard and judged by the switch rule, a
silent link, and the loss of control (R144 to R146, R149). -/

namespace Sys2Proof.Machine

open Sys2Proof

/-! ## The switch rule (R146) -/

section
variable {s : State} {l : Link} {r : Role}

theorem State.judgeSelection_none (h : l = s.sel ∨ r = .standby) : s.judgeSelection l r = s :=
  if_pos h

theorem State.judgeSelection_switch (other : l ≠ s.sel) (claim : r = .active)
    (yields : (s.link s.sel).role = .standby ∨ (s.link s.sel).silent = true) :
    s.judgeSelection l r = ({ s with sel := l }).post .link linkSwitched := by
  subst claim
  exact (if_neg (by simp [other])).trans (if_pos yields)

theorem State.judgeSelection_dual (other : l ≠ s.sel) (claim : r = .active)
    (active : (s.link s.sel).role = .active) (heard : (s.link s.sel).silent = false) :
    s.judgeSelection l r = s.post .link linkDualActive := by
  subst claim
  exact (if_neg (by simp [other])).trans (if_neg (by simp [active, heard]))

end

/-- Settles O42, by the three cases of the switch rule on the state whose link has heard the frame. -/
theorem validFrameActsOnLinkAndSelection : Obligations.ValidFrameActsOnLinkAndSelection := by
  intro s t l r acted
  have heard : s.heard t l r = acted.judgeSelection l r := rfl
  have sel : acted.sel = s.sel := State.modLink_sel ..
  have selected (other : l ≠ s.sel) : acted.link acted.sel = s.link s.sel := by
    rw [sel, State.modLink_link, if_neg (Ne.symm other), State.link_atInstant]
  rw [heard]
  refine ⟨fun none => ?_, fun other claim yields => ?_, fun other claim active spoken => ?_⟩
  · exact State.judgeSelection_none (sel ▸ none)
  · rw [← selected other] at yields
    exact State.judgeSelection_switch (sel ▸ other) claim yields
  · rw [← selected other] at active spoken
    exact State.judgeSelection_dual (sel ▸ other) claim active spoken

/-! ## The silence limit (R145) -/

/-- Settles O46: the limit is that of the unit, and the link is judged by it alone. -/
theorem silenceLimitSilencesTheLink : Obligations.SilenceLimitSilencesTheLink := by
  intro s t l live n
  have span : s.silenceSpan = n := by
    unfold State.silenceSpan
    cases h : s.unit <;> simp only [n, h]
  have judged : exec (.linkSilence t l) s = .next ((s.atInstant t).judgeSilence l) :=
    State.atTick_live live t _
  have reached : (s.atInstant t).silenceReached l = (s.link l).overdue t n := by
    rw [State.silenceReached_eq, State.link_atInstant, ← span]
    rfl
  rw [judged, State.judgeSilence, reached]
  refine ⟨fun overdue => ?_, fun inTime => ?_⟩
  · rw [if_pos overdue]
    cases l <;> rfl
  · rw [if_neg (by simp [inTime])]

/-! ## The no-action limit (R149) -/

/-- The limit is reached for the first time when its instant is reached and none was before. -/
theorem State.noActionReached_iff {s : State} {im : Image} {t0 : Instant} (ready : s.unit = .ready im)
    (taken : s.lastTaken = some t0) : s.noActionReached = true ↔
      reached s.timebase (after t0 (Par.tnoact im * 1000)) = true ∧ s.limitPassed = false := by
  simp only [State.noActionReached, State.working_ready ready, taken, Bool.and_eq_true,
    Bool.not_eq_true', Config.tickUnit]
  exact and_comm

/-- Settles O39: the limit is judged, remembered, and handed outside BLOCKED. -/
theorem controlLossIsHandedOnce : Obligations.ControlLossIsHandedOnce := by
  intro s t t0 im ready taken due passed
  have limit : (s.atInstant t).noActionReached = true ↔ due :=
    State.noActionReached_iff (s := s.atInstant t) ready taken
  have ran : exec (.controlLoss t) s = .next (if (s.atInstant t).noActionReached then
      if s.group.mode = .blocked then passed else (passed.hand .controlLoss).settle
    else s.atInstant t) := State.atTick_live (State.live_ready ready) t _
  rw [ran]
  refine ⟨fun reached blocked => ?_, fun reached deblocked => ?_, fun early => ?_⟩
  · rw [if_pos (limit.2 reached), if_pos blocked]
  · rw [if_pos (limit.2 reached), if_neg deblocked, State.settle_hand rfl]
  · rw [if_neg (mt limit.1 early)]

end Sys2Proof.Machine
end

section
/-! PROOF. What every request finds after its frame's arrival, and the requests that change the stored image
or the part: CONFIG STORE, its end, and RESET (R156, R157, R162, R166, R167). -/

namespace Sys2Proof.Machine

open Sys2Proof

/-! ## What a frame's arrival leaves alone -/

section
variable (s : State) (t : Instant) (l : Link) (r : Role)

@[simp] theorem State.heard_working : (s.heard t l r).working = s.working := by
  simp only [State.working, State.heard_unit]

@[simp] theorem State.heard_isReady : (s.heard t l r).isReady = s.isReady := by
  simp only [State.isReady, State.heard_working]

@[simp] theorem State.heard_isLoading : (s.heard t l r).isLoading = s.isLoading := by
  simp only [State.isLoading, State.heard_unit]

@[simp] theorem State.heard_par (f : Image → Nat) : (s.heard t l r).par f = s.par f := by
  simp only [State.par, State.heard_unit]

/-- A reset leaves nothing of a frame's arrival: what it keeps, the arrival has kept too. -/
theorem State.serviceReset_heard :
    (s.heard t l r).serviceReset = blankState s (.loading 0) .service := by
  rw [State.heard_frame]
  rfl

end

theorem State.working_none_iff {s : State} : s.working = none ↔ s.isReady = false := by
  simp [State.isReady]

/-! ## A changing request on the selected link -/

section
variable {s : State} {h : ServiceHead} {r : Request}

/-- A request of the active link, served after its link and the switch rule. -/
theorem exec_command_active (live : s.live) (addressed : s.addressed h.address)
    (role : h.role = .active) (intact : serviceIntact h r) (t : Instant) (l : Link) :
    exec (r.command t l h) s = .next ((s.heard t l .active).serveRequest l h r) := by
  rw [exec_command live addressed intact, role]

/-- A changing request whose replies carry no data, carried out and answered. -/
theorem exec_command_answered {request : State → State × ServiceResult} {t : Instant} {l : Link}
    {u : State} {result : ServiceResult} (live : s.live) (addressed : s.addressed h.address)
    (role : h.role = .active) (sel : (s.heard t l .active).sel = l) (intact : serviceIntact h r)
    (serves : ∀ s : State, s.serveRequest l h r
      = s.change l h r.code fun s => ((request s).1, (request s).2, []))
    (ran : request (s.heard t l .active) = (u, result)) :
    exec (r.command t l h) s = .next (u.replyService l h.address r.code result []) := by
  rw [exec_command_active live addressed role intact, serves,
    State.change_answered role sel (by rw [ran])]

/-- RESET is refused as any changing request is. -/
theorem State.serveReset_refused {l : Link} {why : ServiceResult} (role : h.role = .active)
    (sel : s.sel = l) (refused : s.resetRefusal = some why) :
    s.serveRequest l h .reset = s.replyService l h.address 12 why [] := by
  rw [State.serveRequest, State.serveReset, if_pos ((s.mayChange_iff l h.role).2 ⟨role, sel⟩), refused]
  rfl

/-- An accepted RESET is answered by nothing. -/
theorem State.serveReset_accepted {l : Link} (role : h.role = .active) (sel : s.sel = l)
    (accepted : s.resetRefusal = none) : s.serveRequest l h .reset = s.serviceReset := by
  rw [State.serveRequest, State.serveReset, if_pos ((s.mayChange_iff l h.role).2 ⟨role, sel⟩), accepted]

end

/-! ## The checks of CONFIG STORE and RESET (R162) -/

section
variable {s : State}

theorem State.configStoreRequest_busy (busy : s.store.isSome) :
    s.configStoreRequest = (s, .busy) := if_pos busy

theorem State.configStoreRequest_noConfig (free : s.store = none) (outside : s.isReady = false) :
    s.configStoreRequest = (s, .noConfig) := by
  simp [State.configStoreRequest, free, State.working_none_iff.2 outside]

theorem State.configStoreRequest_wrongMode {im : Image} (free : s.store = none)
    (ready : s.unit = .ready im) (mode : s.group.mode ≠ .blocked) :
    s.configStoreRequest = (s, .wrongMode) := by
  simp [State.configStoreRequest, free, State.working_ready ready, mode]

/-- A STORE begins with the words of the working image (R166). -/
theorem State.configStoreRequest_accepted {im : Image} (free : s.store = none)
    (ready : s.unit = .ready im) (mode : s.group.mode = .blocked) :
    s.configStoreRequest = ({ s with store := some { began := s.timebase, words := im } }, .ok) := by
  simp [State.configStoreRequest, free, State.working_ready ready, mode]

theorem State.resetRefusal_busy (busy : s.store.isSome) : s.resetRefusal = some .busy := if_pos busy

theorem State.resetRefusal_wrongMode (free : s.store = none) (mode : s.group.mode ≠ .blocked) :
    s.resetRefusal = some .wrongMode := by
  simp [State.resetRefusal, free, mode]

theorem State.resetRefusal_accepted (free : s.store = none) (mode : s.group.mode = .blocked) :
    s.resetRefusal = none := by
  simp [State.resetRefusal, free, mode]

end

/-! ## The end of a STORE (R157, R166) -/

section
variable {s : State} {st : StoreInFlight} (live : s.live) (storing : s.store = some st) (t : Instant)
include live storing

theorem exec_storeComplete (inTime : span st.began t ≤ 1000000) :
    exec (.storeComplete t) s = .next { s.atInstant t with
      store := none, stored := .stored, sent := .memory st.words :: s.sent } := by
  rw [exec, execStoreComplete, State.atTick_live live]
  simp only [State.atInstant_store, storing, Config.storeSpan, if_pos inTime, State.atInstant_sent]

theorem exec_storeFailed {why : StoreFault}
    (fails : why = .writeError ∨ reached t (after st.began 1000000) = true) :
    exec (.storeFailed t why) s = .next { s.atInstant t with store := none, stored := .failed } := by
  rw [exec, execStoreFailed, State.atTick_live live]
  simp only [State.atInstant_store, storing, Config.storeSpan, if_pos fails]

end

/-- Settles O53: each refusal is a check of its request, in their order, and a RESET keeps what no frame's
arrival moves. -/
theorem storesAndServiceResetsRun : Obligations.StoresAndServiceResetsRun := by
  refine ⟨?requests, ?ends⟩
  case ends =>
    intro s t st live storing failed
    exact ⟨exec_storeComplete live storing t, exec_storeFailed live storing t (.inl rfl),
      fun late => exec_storeFailed live storing t (.inr late)⟩
  intro s t l h live addressed role sel s1 refused
  have store : s1.store = s.store := State.heard_store ..
  have mode : s1.group.mode = s.group.mode := congrArg Group.mode (State.heard_group ..)
  refine ⟨fun intact => ?_, fun intact => ?_⟩
  · intro run
    have answered {u : State} {result : ServiceResult} (ran : s1.configStoreRequest = (u, result)) :
        run = .next (u.replyService l h.address 11 result []) :=
      exec_command_answered live addressed role sel intact (fun _ => rfl) ran
    have unit : s1.unit = s.unit := State.heard_unit ..
    have now : s1.timebase = t := State.heard_timebase ..
    refine ⟨fun busy => ?_, fun free outside => ?_, fun free inside deblocked => ?_,
      fun im free ready blocked => ?_⟩
    · exact answered (State.configStoreRequest_busy (store ▸ busy))
    · exact answered (State.configStoreRequest_noConfig (store ▸ free)
        ((State.heard_isReady ..).trans outside))
    · obtain ⟨im, ready⟩ := State.isReady_iff.1 inside
      exact answered (State.configStoreRequest_wrongMode (store ▸ free) (unit.trans ready)
        (mode ▸ deblocked))
    · rw [← now]
      exact answered (State.configStoreRequest_accepted (store.trans free) (unit.trans ready)
        (mode.trans blocked))
  · intro run
    have served : run = .next (s1.serveRequest l h .reset) :=
      exec_command_active live addressed role intact t l
    rw [served]
    refine ⟨fun busy => ?_, fun free deblocked => ?_, fun free blocked => ?_⟩
    · rw [State.serveReset_refused role sel (State.resetRefusal_busy (store ▸ busy))]
    · rw [State.serveReset_refused role sel
        (State.resetRefusal_wrongMode (store.trans free) (mode ▸ deblocked))]
    · rw [State.serveReset_accepted role sel
        (State.resetRefusal_accepted (store.trans free) (mode.trans blocked)), State.serviceReset_heard]

end Sys2Proof.Machine
end

section
/-! PROOF. CONFIG WRITE and CONFIG APPLY: their checks in order, the words written, and every block started
under the staging image (R17, R52, R82, R108, R122, R145, R161, R162, R165). -/

namespace Sys2Proof.Machine

open Sys2Proof

/-! ## The checks (R161, R162) -/

theorem State.isLoading_iff {s : State} : s.isLoading = true ↔ ∃ began, s.unit = .loading began := by
  unfold State.isLoading
  split
  · exact iff_of_true rfl ⟨_, by assumption⟩
  · rename_i other
    exact iff_of_false (by decide) fun ⟨began, h⟩ => other began h

/-- The words that a CONFIG READ and a CONFIG WRITE may name: one to eight, all in the image. -/
theorem wordsInImage_iff (a n : Byte) :
    (inRange 1 8 n.toNat && decide (a.toNat + n.toNat ≤ Config.imageWords)) = true
      ↔ 1 ≤ n.toNat ∧ n.toNat ≤ 8 ∧ a.toNat + n.toNat ≤ 64 := by
  simp [inRange, and_assoc]

section
variable {s : State} {a n : Byte} {data : Vector Word16 8}

theorem State.configWriteRequest_noConfig (loading : s.isLoading = true) :
    s.configWriteRequest a n data = (s, .noConfig) := if_pos loading

theorem State.configWriteRequest_badAddress (loaded : ¬ s.isLoading = true)
    (outside : ¬ (1 ≤ n.toNat ∧ n.toNat ≤ 8 ∧ a.toNat + n.toNat ≤ 64)) :
    s.configWriteRequest a n data = (s, .badAddress) :=
  (if_neg loaded).trans (if_neg (mt (wordsInImage_iff a n).1 outside))

theorem State.configWriteRequest_accepted (loaded : ¬ s.isLoading = true)
    (inside : 1 ≤ n.toNat ∧ n.toNat ≤ 8 ∧ a.toNat + n.toNat ≤ 64) :
    s.configWriteRequest a n data
      = ({ s with staging := imageWrite s.staging a.toNat n.toNat data }, .ok) :=
  (if_neg loaded).trans (if_pos ((wordsInImage_iff a n).2 inside))

theorem State.configApplyRequest_busy (busy : s.store.isSome) :
    s.configApplyRequest = (s, .busy) := if_pos busy

section
variable (free : s.store = none)
include free

theorem State.configApplyRequest_noConfig (loading : s.isLoading = true) :
    s.configApplyRequest = (s, .noConfig) := by
  simp [State.configApplyRequest, free, loading]

theorem State.configApplyRequest_wrongMode (loaded : ¬ s.isLoading = true)
    (deblocked : s.isReady = true ∧ s.group.mode ≠ .blocked) :
    s.configApplyRequest = (s, .wrongMode) := by
  simp [State.configApplyRequest, free, loaded, deblocked]

variable (loaded : ¬ s.isLoading = true) (blocked : ¬ (s.isReady = true ∧ s.group.mode ≠ .blocked))
include loaded blocked

theorem State.configApplyRequest_checked : s.configApplyRequest
    = if imageValid s.staging then (s.applyStaging, .ok) else (s, .invalidImage) := by
  have mode : ¬ (s.isReady && s.group.mode != .blocked) = true := by simpa using blocked
  rw [State.configApplyRequest, free, if_neg (by decide), if_neg loaded, if_neg mode]

end
end

/-! ## The words written (R161) -/

/-- A write changes the named words and leaves the others. -/
theorem imageWord_imageWrite (im : Image) (a n : Nat) (data : Vector Word16 8) {k : Nat} (hk : k < 64) :
    imageWord (imageWrite im a n data) k
      = if a ≤ k ∧ k < a + n then (data.toList.getD (k - a) 0).toNat else imageWord im k := by
  have written : (imageWrite im a n data).toList.getD k 0
      = if a ≤ k ∧ k < a + n then data.toList.getD (k - a) 0 else im.toList.getD k 0 := by
    simp [imageWrite, hk]
  rw [imageWord, written, imageWord]
  split <;> rfl

/-! ## Every block started under the staging image (R165) -/

/-- With no level failed the margin is AT_LIMIT where none may fail. -/
theorem marginOf_zero (rv : Nat) : marginOf 0 rv = if rv = 0 then .atLimit else .ample := by
  unfold marginOf
  rcases Nat.eq_zero_or_pos rv with rfl | positive
  · rfl
  · rw [if_pos positive, if_neg (by omega)]

/-- A valve started under an image differs from one after a reset in its levels, their tally and margin,
and the last-send time. -/
theorem ValveRecord.started_eq (im : Image) (j : Valve) (lastSend : Option Instant) :
    ValveRecord.started im j lastSend = { blankValve with
      monitor := { blankValve.monitor with
        tally := { unproven := Par.nv j im }
        margin := if Par.rv j im = 0 then .atLimit else .ample }
      channel := { blankValve.channel with lastSend := lastSend }
      levels := List.replicate (Par.nv j im) { state := .unproven } } := by
  rw [ValveRecord.started, marginOf_zero]
  rfl

/-- The IDLE messages of the beginning of service, newest first (R37). -/
def idlesSent (t : Instant) : List Sent := (allValves.map fun j => Sent.channel j (idleMessage t)).reverse

/-- Every block as an APPLY leaves it; only the links are named by what they are. -/
theorem State.applyStaging_frame (s : State) : s.applyStaging = { s with
    unit := .ready s.staging
    tracker := Tracker.started s.staging s.refHigh s.timebase
    counter := 0
    valves := Vector.ofFn fun j => ValveRecord.started s.staging j
      (if s.isReady then (s.valve j).channel.lastSend else some s.timebase)
    guard := {}
    group := {}
    linkA := s.applyStaging.linkA
    linkB := s.applyStaging.linkB
    sent := if s.isReady then s.sent else idlesSent s.timebase ++ s.sent } := by
  unfold State.applyStaging
  cases s.isReady
  · simp only [Bool.false_eq_true, if_false]
    rw [State.beginService_frame, State.startBlocks_frame]
    simp [State.post, State.valve, ValveRecord.started, ValveRecord.withLastSend, idlesSent]
  · simp only [if_true]
    rw [State.startBlocks_frame]
    rfl

/-- The links as an APPLY leaves them: those of the blocks started, CONFIG_APPLIED posted. -/
theorem State.applyStaging_link (s : State) (l : Link) :
    s.applyStaging.link l = ((s.startBlocks s.staging).link l).post .mode modeConfigApplied := by
  unfold State.applyStaging
  rw [State.post_link]
  simp only
  split
  · cases l <;> rfl
  · rw [State.beginService_frame]
    cases l <;> rfl

theorem State.applyStaging_word (s : State) (l : Link) (src : Source) : s.applyStaging.word l src
    = if src = .mode then s.word l .mode ||| modeConfigApplied
      else (s.startBlocks s.staging).word l src := by
  rw [State.word, State.applyStaging_link, LinkState.post_pendingWord]
  split
  · have kept := s.startBlocks_word s.staging l .mode
    rw [State.post_word, if_neg (by decide), if_neg (by decide)] at kept
    exact congrArg (· ||| modeConfigApplied) (kept.trans (BitVec.or_zero ..))
  · rfl

/-- A link is silent after an APPLY when its limit has passed under the new TSIL (R145). -/
theorem State.applyStaging_silent (s : State) (l : Link) : s.applyStaging.link l = { s.link l with
    silent := (s.link l).silent || (s.link l).overdue s.timebase (Par.tsil s.staging * 1000)
    attention := (s.applyStaging.link l).attention } := by
  rw [State.applyStaging_link, LinkState.post, State.startBlocks_link]

/-- The words an APPLY posts: SEEKING, CONFIG_APPLIED, and the links that became silent (R17, R145, R165). -/
theorem State.applyStaging_posted (s : State) :
    let late (l : Link) := (s.link l).overdue s.timebase (Par.tsil s.staging * 1000)
    Posted s s.applyStaging .sync syncSeeking ∧ Posted s s.applyStaging .mode modeConfigApplied
    ∧ Posted s s.applyStaging .link
        ((if late .a then linkASilent else 0) ||| if late .b then linkBSilent else 0)
    ∧ ∀ l src, src ≠ .sync → src ≠ .mode → src ≠ .link →
        s.applyStaging.word l src = s.word l src := by
  refine ⟨fun l => ?_, fun l => ?_, fun l => ?_, fun l src notSync notMode notLink => ?_⟩
  · rw [State.applyStaging_word, if_neg (by decide), State.startBlocks_word, State.post_word, if_pos rfl,
      if_neg (by decide)]
    exact BitVec.or_zero
  · rw [State.applyStaging_word, if_pos rfl]
  · rw [State.applyStaging_word, if_neg (by decide), State.startBlocks_word, State.post_word,
      if_neg (by decide), if_pos rfl]
    rfl
  · rw [State.applyStaging_word, if_neg notMode, State.startBlocks_word, State.post_word,
      if_neg notSync, if_neg notLink]
    exact BitVec.or_zero

section
variable (s : State) (t : Instant) (l : Link) (r : Role)

@[simp] theorem State.heard_refHigh : (s.heard t l r).refHigh = s.refHigh := by
  rw [State.heard_frame]; rfl

@[simp] theorem State.heard_sent : (s.heard t l r).sent = s.sent := by
  rw [State.heard_frame]; rfl

/-- An APPLY that a frame brings, every block spelled out. -/
theorem State.applyStaging_heard :
    let s1 := s.heard t l r
    let im := s.staging
    s1.applyStaging = { s1 with
      unit := .ready im
      tracker := { detector := .disarmed (if s.refHigh then none else some t), period := Par.pnom im }
      counter := 0
      valves := Vector.ofFn fun j =>
        { blankValve with
          monitor := { blankValve.monitor with
            tally := { unproven := Par.nv j im }
            margin := if Par.rv j im = 0 then .atLimit else .ample }
          channel := { blankValve.channel with
            lastSend := if s.isReady then (s.valve j).channel.lastSend else some t }
          levels := List.replicate (Par.nv j im) { state := .unproven } }
      guard := {}
      group := {}
      linkA := s1.applyStaging.linkA
      linkB := s1.applyStaging.linkB
      sent := if s.isReady then s.sent else idlesSent t ++ s.sent } := by
  intro s1 im
  have frame := s1.applyStaging_frame
  simp only [s1, State.heard_staging, State.heard_refHigh, State.heard_timebase, State.heard_isReady,
    State.heard_valve, State.heard_sent, ValveRecord.started_eq] at frame ⊢
  exact frame

end

/-- Settles O52: each refusal is a check of its request, and an APPLY starts the blocks under the staging
image, which no frame's arrival moves. -/
theorem configurationIsWrittenAndApplied : Obligations.ConfigurationIsWrittenAndApplied := by
  intro s t l h live addressed role sel s1 loading
  have isLoading : s1.isLoading = true ↔ loading := by
    rw [State.heard_isLoading, State.isLoading_iff]
  have staging : s1.staging = s.staging := State.heard_staging ..
  have now : s1.timebase = t := State.heard_timebase ..
  refine ⟨fun a n data intact => ?_, fun intact => ?_⟩
  · intro inImage run
    have answered {u : State} {result : ServiceResult}
        (ran : s1.configWriteRequest a n data = (u, result)) :
        run = .next (u.replyService l h.address 9 result []) :=
      exec_command_answered live addressed role sel intact (fun _ => rfl) ran
    refine ⟨fun during => ?_, fun loaded outside => ?_, fun loaded inside => ?_⟩
    · exact answered (State.configWriteRequest_noConfig (isLoading.2 during))
    · exact answered (State.configWriteRequest_badAddress (mt isLoading.1 loaded) outside)
    · refine ⟨imageWrite s.staging a.toNat n.toNat data, ?_,
        fun k hk => imageWord_imageWrite _ _ _ data hk⟩
      rw [← staging]
      exact answered (State.configWriteRequest_accepted (mt isLoading.1 loaded) inside)
  · intro run refused notBlocked
    have answered {u : State} {result : ServiceResult} (ran : s1.configApplyRequest = (u, result)) :
        run = .next (u.replyService l h.address 10 result []) :=
      exec_command_answered live addressed role sel intact (fun _ => rfl) ran
    have store : s1.store = s.store := State.heard_store ..
    have deblocked : (s1.isReady = true ∧ s1.group.mode ≠ .blocked) ↔ notBlocked := by
      rw [State.heard_isReady, State.heard_group]
    refine ⟨fun busy => ?_, fun free during => ?_, fun free deblocks => ?_,
      fun free loaded blocked invalid => ?_, fun free loaded blocked valid => ?_⟩
    · exact answered (State.configApplyRequest_busy (store ▸ busy))
    · exact answered (State.configApplyRequest_noConfig (store.trans free) (isLoading.2 during))
    · have loaded : ¬ loading := fun ⟨began, during⟩ => by
        obtain ⟨im, ready⟩ := State.isReady_iff.1 deblocks.1
        rw [during] at ready
        cases ready
      exact answered (State.configApplyRequest_wrongMode (store.trans free) (mt isLoading.1 loaded)
        (deblocked.2 deblocks))
    · refine answered ((State.configApplyRequest_checked (store.trans free) (mt isLoading.1 loaded)
        (mt deblocked.1 blocked)).trans (if_neg ?_))
      rw [staging, invalid]
      decide
    · intro im late
      have posted := s1.applyStaging_posted
      rw [staging, now] at posted
      refine ⟨s1.applyStaging, answered ((State.configApplyRequest_checked (store.trans free)
        (mt isLoading.1 loaded) (mt deblocked.1 blocked)).trans (if_pos (staging ▸ valid))),
        State.applyStaging_heard .., fun l' => ?_, posted⟩
      rw [State.applyStaging_silent, staging, now]

end Sys2Proof.Machine
end

section
/-! PROOF. The reading requests that move nothing, and the layouts of the service reply, of the level record
and of the valve record (R156, R158, R161; Service frames and replies). -/

namespace Sys2Proof.Machine

open Sys2Proof

/-! ## Fields at their places -/

/-- Two bytes that a word's bytes begin at spell it. -/
theorem word_of_drop {b rest : List Byte} {n : Nat} {w : Word16} (h : b.drop n = bytes2 w ++ rest) :
    (b.getD n 0 ++ b.getD (n + 1) 0 : BitVec (8 + 8)) = w := by
  have byte (i : Nat) : b.getD (n + i) 0 = (bytes2 w ++ rest).getD i 0 := by
    rw [← h, List.getD_eq_getElem?_getD, List.getD_eq_getElem?_getD, List.getElem?_drop]
  have high : b.getD n 0 = w.extractLsb' 8 8 := byte 0
  have low : b.getD (n + 1) 0 = w.extractLsb' 0 8 := byte 1
  rw [high, low, bytes2_append]

/-- The two words of a 32-bit field. -/
def halves (w : Instant) : List Word16 := [w.extractLsb' 16 16, w.extractLsb' 0 16]

/-- A list of 32-bit fields goes out word by word. -/
theorem flatMap_halves (ts : List Instant) :
    (ts.flatMap halves).flatMap bytes2 = ts.flatMap bytes4 := by
  rw [List.flatMap_assoc]
  refine List.flatMap_congr fun t _ => ?_
  rw [bytes4_eq]
  rfl

theorem halves_append (w : Instant) :
    (w.extractLsb' 16 16 ++ w.extractLsb' 0 16 : BitVec (16 + 16)) = w := by
  rw [BitVec.extractLsb'_append_extractLsb'_eq_extractLsb' (by decide : 16 = 0 + 16)]
  exact BitVec.extractLsb'_eq_self

/-! ## The service reply -/

/-- The seven bytes before a reply's data. -/
def ServiceReply.head (r : ServiceReply) : List Byte :=
  [r.address ++ serviceReplyKind, (0 : BitVec 4) ++ r.code,
   r.stored.code ++ (0 : BitVec 2) ++ r.result.code] ++ countBytes4 r.counter

theorem ServiceReply.bytes_eq (r : ServiceReply) : r.bytes = withCrc (r.head ++ r.data) := rfl

/-- A reply is its head, its data, and the CRC of both. -/
theorem ServiceReply.bytes_parts (r : ServiceReply) :
    r.bytes.length = 9 + r.data.length ∧ (r.bytes.drop 7).take r.data.length = r.data
    ∧ r.bytes.drop (7 + r.data.length) = bytes2 (crc16 (r.bytes.take (7 + r.data.length))) := by
  have length : (r.head ++ r.data).length = 7 + r.data.length := by
    rw [List.length_append]
    rfl
  refine ⟨?_, ?_, ?_⟩
  · rw [ServiceReply.bytes_eq, withCrc_length, length]
    omega
  · exact List.take_left
  · rw [ServiceReply.bytes_eq, withCrc, List.drop_left' length, List.take_left' length]

/-! ## The level record -/

theorem linkBit_retiredBy (k : Option Link) :
    (k.map linkBit).getD 0 = BitVec.ofBool (decide (k = some .b)) := by
  rcases k with _ | _ | _ <;> rfl

/-! ## The valve record -/

section
variable (v : ValveRecord) (j : Valve) (nv rv ptv : Nat)

/-- The first 15 bytes of a valve record, fields of one byte. -/
def ValveRecord.head : List Byte :=
  [byteOf (j.val + 1), byteOf nv, byteOf rv, byteOf ptv,
   byteOf v.monitor.tally.unproven, byteOf v.monitor.tally.sound, byteOf v.monitor.tally.suspect,
   byteOf v.monitor.tally.dark, byteOf v.monitor.tally.faulted, byteOf v.monitor.tally.retired,
   (v.monitor.margin.code).zeroExtend 8, v.monitor.phase.code, byteOf v.monitor.indicated,
   byteOf v.monitor.distinctPfi, Config.channelStateCode v.channel.up]

/-- The first 18 bytes: with the presence word and the length of the zero queue. -/
def ValveRecord.opening : List Byte :=
  v.head j nv rv ptv ++ bytes2 v.presence ++ [byteOf v.schedule.zeros.length]

/-- The instants of the zeros, which follow. -/
def ValveRecord.zeroInstants : List Instant :=
  [v.schedule.zeros.getD 0 0, v.schedule.zeros.getD 1 0, v.schedule.zero]

/-- The instants after the effective angle, 0 where absent. -/
def ValveRecord.instants : List Instant :=
  [v.schedule.fireAt.getD 0, v.schedule.expiry.getD 0, v.schedule.deadline.getD 0,
   v.monitor.blockBack.getD 0, v.monitor.lastFire.getD 0]

/-- The counts of 16 bits after them. -/
def ValveRecord.counts : List Nat :=
  [v.lastGamma.getD 0, v.monitor.scheduled, v.monitor.late, v.monitor.forced, v.schedule.pulledIn,
   v.monitor.refire, v.monitor.protective, v.bypasses, v.schedule.slips, v.commFailures,
   v.channel.errors]

/-- The words that follow the opening: instants, the effective angle, instants, counts. -/
def ValveRecord.words : List Word16 :=
  v.zeroInstants.flatMap halves ++ BitVec.ofNat 16 v.schedule.alphaEff
    :: (v.instants.flatMap halves ++ v.counts.map (BitVec.ofNat 16))

/-- The last three bytes: the two noise counts. -/
def ValveRecord.closing : List Byte :=
  byteOf v.channel.noiseCycle :: countBytes2 v.channel.noiseTotal

theorem ValveRecord.words_bytes : v.words.flatMap bytes2
    = v.zeroInstants.flatMap bytes4 ++ (countBytes2 v.schedule.alphaEff
      ++ (v.instants.flatMap bytes4 ++ v.counts.flatMap countBytes2)) := by
  rw [ValveRecord.words, List.flatMap_append, List.flatMap_cons, List.flatMap_append,
    flatMap_halves, flatMap_halves, List.flatMap_map]
  rfl

/-- A valve record is its opening, its words, and its closing. -/
theorem ValveRecord.bytes_eq : v.bytes j nv rv ptv
    = v.opening j nv rv ptv ++ (v.words.flatMap bytes2 ++ v.closing) := by
  rw [ValveRecord.words_bytes]
  unfold ValveRecord.bytes
  rw [← ValveRecord.head]
  unfold ValveRecord.opening ValveRecord.closing ValveRecord.zeroInstants ValveRecord.instants
    ValveRecord.counts instantBytes
  simp only [List.flatMap_cons, List.flatMap_nil, List.append_assoc, List.nil_append, List.append_nil,
    List.cons_append]

theorem ValveRecord.words_bytes_length : (v.words.flatMap bytes2).length = 56 := by
  have words : v.words.length = 28 := rfl
  simp [List.length_flatMap, words]

theorem ValveRecord.bytes_length : (v.bytes j nv rv ptv).length = 77 := by
  rw [ValveRecord.bytes_eq, List.length_append, List.length_append, v.words_bytes_length]
  rfl

/-- The noise counts of a valve record are its last three bytes. -/
theorem ValveRecord.bytes_noise :
    let b := v.bytes j nv rv ptv
    b.getD 74 0 = byteOf v.channel.noiseCycle
      ∧ (b.getD 75 0 ++ b.getD 76 0 : BitVec (8 + 8)) = BitVec.ofNat 16 v.channel.noiseTotal := by
  intro b
  have opening : (v.opening j nv rv ptv).length = 18 := rfl
  have closing : b.drop 74 = v.closing := by
    rw [show b = _ from v.bytes_eq j nv rv ptv, ← List.append_assoc]
    exact List.drop_left' (by rw [List.length_append, opening, v.words_bytes_length])
  have byte (i : Nat) : b.getD (74 + i) 0 = v.closing.getD i 0 := by
    rw [← closing, List.getD_eq_getElem?_getD, List.getD_eq_getElem?_getD, List.getElem?_drop]
  have total : b.drop 75 = bytes2 (BitVec.ofNat 16 v.channel.noiseTotal) ++ [] := by
    rw [← List.drop_drop (i := 1) (j := 74), closing]
    rfl
  exact ⟨byte 0, word_of_drop total⟩

variable {v} {n : Nat}

/-- Each word of a valve record stands at its place from byte 18 on. -/
theorem ValveRecord.word_at {w : Word16} (h : v.words[n]? = some w) :
    ((v.bytes j nv rv ptv).getD (18 + 2 * n) 0 ++ (v.bytes j nv rv ptv).getD (18 + 2 * n + 1) 0
      : BitVec (8 + 8)) = w := by
  obtain ⟨rest, found⟩ := drop_flatMap_bytes2 h
  have opening : (v.opening j nv rv ptv).length = 18 := rfl
  have inside : 2 * n ≤ (v.words.flatMap bytes2).length := by
    have := (List.getElem?_eq_some_iff.1 h).1
    have words : v.words.length = 28 := rfl
    rw [v.words_bytes_length]
    omega
  refine word_of_drop (rest := rest ++ v.closing) ?_
  rw [ValveRecord.bytes_eq, ← opening, ← List.drop_drop, List.drop_left,
    List.drop_append_of_le_length inside, found, List.append_assoc]

/-- Each instant of a valve record stands at the place of its first word. -/
theorem ValveRecord.instant_at {t : Instant} (high : v.words[n]? = some (t.extractLsb' 16 16))
    (low : v.words[n + 1]? = some (t.extractLsb' 0 16)) :
    let b := v.bytes j nv rv ptv
    ((b.getD (18 + 2 * n) 0 ++ b.getD (18 + 2 * n + 1) 0)
      ++ (b.getD (18 + 2 * n + 2) 0 ++ b.getD (18 + 2 * n + 2 + 1) 0) : BitVec (16 + 16)) = t := by
  intro b
  have first : (b.getD (18 + 2 * n) 0 ++ b.getD (18 + 2 * n + 1) 0 : BitVec (8 + 8))
      = t.extractLsb' 16 16 := ValveRecord.word_at j nv rv ptv high
  have second : (b.getD (18 + 2 * n + 2) 0 ++ b.getD (18 + 2 * n + 2 + 1) 0 : BitVec (8 + 8))
      = t.extractLsb' 0 16 := by
    rw [show 18 + 2 * n + 2 = 18 + 2 * (n + 1) by omega]
    exact ValveRecord.word_at j nv rv ptv low
  exact (congrArg₂ (fun hi lo : Word16 => hi ++ lo) first second).trans (halves_append t)

end

/-! ## The words of an image (R161) -/

/-- Consecutive words of an image, one by one. -/
theorem Image.words_eq (im : Image) {a n : Nat} (inside : a + n ≤ 64) :
    (im.toList.drop a).take n
      = (List.range n).map fun k => BitVec.ofNat 16 (imageWord im (a + k)) := by
  refine List.ext_getElem (by simp [Config.imageWords]; omega) fun k hk _ => ?_
  have place : a + k < 64 := by
    rw [List.length_take] at hk
    omega
  simp [imageWord, place]

/-! ## The answers (R158, R161) -/

/-- A reading request is answered from the state its frame's arrival leaves, which it does not move. -/
theorem exec_command_read {s : State} {h : ServiceHead} {r : Request} {t : Instant} {l : Link}
    {read : State → ServiceResult × List Byte} {result : ServiceResult} {data : List Byte}
    (live : s.live) (addressed : s.addressed h.address) (intact : serviceIntact h r)
    (serves : ∀ s : State, s.serveRequest l h r = s.answer l h r.code (read s))
    (reads : read (s.heard t l h.role) = (result, data)) :
    exec (r.command t l h) s
      = .next ((s.heard t l h.role).replyService l h.address r.code result data) := by
  rw [exec_command live addressed intact, serves, State.answer, reads]

section
variable {s : State} {j p : Byte}

theorem State.lookUpLevelResult_noConfig (outside : s.isReady = false) :
    s.lookUpLevelResult j p = (.noConfig, []) := by simp [State.lookUpLevelResult, outside]

theorem State.lookUpLevelResult_badAddress (ready : s.isReady = true) (none : s.installedAt j p = none) :
    s.lookUpLevelResult j p = (.badAddress, []) := by simp [State.lookUpLevelResult, ready, none]

theorem State.lookUpLevelResult_ok {v : Valve} {q : Nat} (ready : s.isReady = true)
    (found : s.installedAt j p = some (v, q)) :
    s.lookUpLevelResult j p = (.ok, ((s.valve v).level q).bytes (v.val + 1) q) := by
  simp [State.lookUpLevelResult, ready, found, State.levelData]

theorem State.lookUpValveResult_badAddress (outside : ∀ v : Valve, j.toNat ≠ v.val + 1) :
    s.lookUpValveResult j = (.badAddress, []) := by
  simp only [State.lookUpValveResult, valveOf_none outside]

theorem State.lookUpValveResult_ok {v : Valve} (valve : j.toNat = v.val + 1) :
    s.lookUpValveResult j = (.ok,
      (s.valve v).bytes v (s.par (Par.nv v)) (s.par (Par.rv v)) (s.par (Par.ptv v))) := by
  simp only [State.lookUpValveResult, valveOf_eq valve]

end

section
variable {s : State} {a n : Byte} {im : Image}

theorem State.configReadResult_noConfig (outside : s.isReady = false) :
    s.configReadResult a n = (.noConfig, []) := by
  simp only [State.configReadResult, State.working_none_iff.2 outside]

theorem State.configReadResult_badAddress (ready : s.unit = .ready im)
    (outside : ¬ (1 ≤ n.toNat ∧ n.toNat ≤ 8 ∧ a.toNat + n.toNat ≤ 64)) :
    s.configReadResult a n = (.badAddress, []) := by
  simp only [State.configReadResult, State.working_ready ready]
  exact if_neg (mt (wordsInImage_iff a n).1 outside)

theorem State.configReadResult_ok (ready : s.unit = .ready im)
    (inside : 1 ≤ n.toNat ∧ n.toNat ≤ 8 ∧ a.toNat + n.toNat ≤ 64) :
    s.configReadResult a n = (.ok, a :: n :: (List.range n.toNat).flatMap fun k =>
      bytes2 (BitVec.ofNat 16 (imageWord im (a.toNat + k)))) := by
  have data := Image.words_eq im inside.2.2
  simp only [State.configReadResult, State.working_ready ready, data, List.flatMap_map]
  exact if_pos ((wordsInImage_iff a n).2 inside)

end

/-- Settles O47: each request answers as the state has it, and each layout is read off byte by byte. -/
theorem lookUpsAnswerFromTheState : Obligations.LookUpsAnswerFromTheState := by
  refine ⟨?requests, ?reply, ?level, ?valve⟩
  case requests =>
    intro s t l h live addressed s1 answer
    have ready : s1.isReady = s.isReady := State.heard_isReady ..
    refine ⟨fun j p intact => ?_, fun j intact => ?_, fun a n intact => ?_⟩
    · intro run
      have answered {result : ServiceResult} {data : List Byte}
          (reads : s1.lookUpLevelResult j p = (result, data)) : run = answer 1 result data :=
        exec_command_read (read := (State.lookUpLevelResult · j p)) live addressed intact (fun _ => rfl)
          reads
      refine ⟨fun outside => ?_, fun inside missing => ?_, fun v inside valve first last => ?_⟩
      · exact answered (State.lookUpLevelResult_noConfig (ready.trans outside))
      · refine answered (State.lookUpLevelResult_badAddress (ready.trans inside)
          (State.installedAt_none ?_))
        rcases missing with other | zero | beyond
        · exact .inl other
        · exact .inr (.inl zero)
        · exact .inr (.inr (.inl beyond))
      · intro record
        have found : (s1.valve v).level p.toNat = record := by rw [State.heard_valve]
        refine ⟨fun absent => ?_, fun installed => ?_, rfl⟩
        · exact answered (State.lookUpLevelResult_badAddress (ready.trans inside)
            (State.installedAt_none (.inr (.inr (.inr ⟨v, valve, by rw [found, absent]⟩)))))
        · have ok := State.lookUpLevelResult_ok (ready.trans inside)
            (State.installedAt_eq valve first last (found ▸ installed))
          rw [← valve, found] at ok
          exact answered ok
    · intro run
      have answered {result : ServiceResult} {data : List Byte}
          (reads : s1.lookUpValveResult j = (result, data)) : run = answer 2 result data :=
        exec_command_read (read := (State.lookUpValveResult · j)) live addressed intact (fun _ => rfl)
          reads
      refine ⟨fun outside => answered (State.lookUpValveResult_badAddress outside), fun v valve => ?_⟩
      intro data
      have ok := State.lookUpValveResult_ok (s := s1) valve
      simp only [s1, State.heard_par, State.heard_valve] at ok
      exact ⟨answered ok, ValveRecord.bytes_length ..⟩
    · intro run
      have answered {result : ServiceResult} {data : List Byte}
          (reads : s1.configReadResult a n = (result, data)) : run = answer 8 result data :=
        exec_command_read (read := (State.configReadResult · a n)) live addressed intact (fun _ => rfl)
          reads
      refine ⟨fun outside => ?_, fun im loaded => ⟨fun outside => ?_, fun one few inside => ?_⟩⟩
      · exact answered (State.configReadResult_noConfig (ready.trans outside))
      · refine answered (State.configReadResult_badAddress ((State.heard_unit ..).trans loaded) ?_)
        omega
      · exact answered (State.configReadResult_ok ((State.heard_unit ..).trans loaded)
          ⟨one, few, inside⟩)
  case reply =>
    intro r b stored result
    have storedCode : r.stored.code = stored := by
      cases h : r.stored <;> simp only [stored, h] <;> rfl
    have resultCode : r.result.code = result := by
      cases h : r.result <;> simp only [result, h] <;> rfl
    obtain ⟨length, data, crc⟩ := r.bytes_parts
    refine ⟨length, rfl, rfl, ?_, bytes4_append _, data, crc⟩
    rw [← storedCode, ← resultCode]
    rfl
  case level =>
    intro l j p b byte state kind bit
    have stateCode : l.state.code = state := by
      cases h : l.state <;> simp only [state, h] <;> rfl
    have kindCode : (l.lastReport.map fun r => r.1.code).getD 0 = kind := by
      rcases h : l.lastReport with _ | ⟨_ | _ | _, _⟩ <;> simp only [kind, h] <;> rfl
    refine ⟨rfl, ?_, ?_, rfl, bytes2_append _, ?_, bytes4_append _⟩
    · rw [← stateCode]
      rfl
    · rw [← kindCode]
      simp only [bit, ← linkBit_retiredBy]
      rfl
    · refine (bytes4_append _).trans ?_
      cases l.lastReport <;> rfl
  case valve =>
    intro v j nv rv ptv b
    have length : b.length = 77 := v.bytes_length j nv rv ptv
    have word {n : Nat} {w : Word16} (h : v.words[n]? = some w) :
        (b.getD (18 + 2 * n) 0 ++ b.getD (18 + 2 * n + 1) 0 : BitVec (8 + 8)) = w :=
      ValveRecord.word_at j nv rv ptv h
    have instant {n : Nat} {i : Instant} (high : v.words[n]? = some (i.extractLsb' 16 16))
        (low : v.words[n + 1]? = some (i.extractLsb' 0 16)) :
        ((b.getD (18 + 2 * n) 0 ++ b.getD (18 + 2 * n + 1) 0)
          ++ (b.getD (18 + 2 * n + 2) 0 ++ b.getD (18 + 2 * n + 2 + 1) 0) : BitVec (16 + 16)) = i :=
      ValveRecord.instant_at j nv rv ptv high low
    have noise : b.getD 74 0 = byteOf v.channel.noiseCycle
        ∧ (b.getD 75 0 ++ b.getD 76 0 : BitVec (8 + 8)) = BitVec.ofNat 16 v.channel.noiseTotal :=
      v.bytes_noise j nv rv ptv
    obtain ⟨tail, parts⟩ : ∃ tail, b = v.opening j nv rv ptv ++ tail :=
      ⟨_, v.bytes_eq j nv rv ptv⟩
    clear_value b
    subst parts
    intro byte at2 at4 count m c margin phase bit
    have marginCode : m.margin.code.zeroExtend 8 = margin := by
      cases h : m.margin <;> simp only [margin, h] <;> rfl
    have phaseCode : m.phase.code = phase := by
      cases h : m.phase <;> simp only [phase, h] <;> rfl
    refine ⟨length, rfl, rfl, ?_, bytes2_append v.presence, rfl,
      instant (n := 0) rfl rfl, instant (n := 2) rfl rfl, instant (n := 4) rfl rfl, word (n := 6) rfl,
      instant (n := 7) rfl rfl, instant (n := 9) rfl rfl, instant (n := 11) rfl rfl,
      instant (n := 13) rfl rfl, instant (n := 15) rfl rfl, word (n := 17) rfl, word (n := 18) rfl,
      word (n := 19) rfl, word (n := 20) rfl, word (n := 21) rfl, word (n := 22) rfl,
      word (n := 23) rfl, word (n := 24) rfl, word (n := 25) rfl, word (n := 26) rfl,
      word (n := 27) rfl, noise⟩
    rw [← marginCode, ← phaseCode]
    rfl

end Sys2Proof.Machine
end

section
/-! PROOF. SEEK and WALK: the cursor of a link, the records of the Level Table in table order, and the walk
through them (R159). -/

namespace Sys2Proof.Machine

open Sys2Proof

/-! ## Table order -/

/-- A record's place in table order, from 1. -/
def Cursor.rank (c : Cursor) : Nat := 80 * c.valve.val + c.position

theorem Cursor.rank_eq {c : Cursor} (first : 1 ≤ c.position) : c.rank = c.index + 1 := by
  simp only [Cursor.rank, Cursor.index, Config.positionCount]
  omega

/-- The address at a place has the place's rank. -/
theorem cursorAt_rank {n : Nat} (h : n < 960) : (cursorAt n).rank = n + 1 := by
  have inside : n / Config.positionCount < Config.valveCount := by
    simp only [Config.positionCount, Config.valveCount]
    omega
  rw [cursorAt, dif_pos inside]
  simp only [Cursor.rank, Config.positionCount]
  omega

/-- The address at an address's own place is that address. -/
theorem cursorAt_index {c : Cursor} (first : 1 ≤ c.position) (last : c.position ≤ 80) :
    cursorAt c.index = c := by
  obtain ⟨v, p⟩ := c
  simp only at first last
  have index : Cursor.index ⟨v, p⟩ = v.val * 80 + (p - 1) := rfl
  have valve : Cursor.index ⟨v, p⟩ / Config.positionCount = v.val := by
    simp only [index, Config.positionCount]
    omega
  have position : Cursor.index ⟨v, p⟩ % Config.positionCount + 1 = p := by
    simp only [index, Config.positionCount]
    omega
  rw [cursorAt, dif_pos (valve ▸ v.isLt), position]
  exact congrArg (fun v => Cursor.mk v p) (Fin.ext valve)

/-! ## The walk -/

/-- A walk from place `n` on, of at most `room` records among those of which `P` holds, has taken the
places `taken` and ended before place `last`, at `stop` at the latest. -/
structure Walked (P : Nat → Prop) (n stop room : Nat) (taken : List Nat) (last : Nat) : Prop where
  starts : n ≤ last
  ends : last ≤ stop
  taken_iff : ∀ m, m ∈ taken ↔ n ≤ m ∧ m < last ∧ P m
  sorted : taken.Pairwise (· < ·)
  few : taken.length ≤ room
  toEnd : taken.length < room → last = stop
  full : taken.length = room → last = taken.getLast?.elim n (· + 1)

namespace Walked
variable {P : Nat → Prop} {n stop room last : Nat} {taken : List Nat}

/-- A walk that has no record left, or no room, takes none. -/
theorem nil (inside : n ≤ stop) (ended : n = stop ∨ room = 0) : Walked P n stop room [] n where
  starts := le_rfl
  ends := inside
  taken_iff m := by simp; omega
  sorted := .nil
  few := Nat.zero_le _
  toEnd h := by
    rw [List.length_nil] at h
    omega
  full _ := rfl

/-- A walk that takes its first record has one place less for the others. -/
theorem take (h : Walked P (n + 1) stop room taken last) (holds : P n) :
    Walked P n stop (room + 1) (n :: taken) last where
  starts := by
    have := h.starts
    omega
  ends := h.ends
  taken_iff m := by
    have := h.starts
    rw [List.mem_cons, h.taken_iff]
    constructor
    · rintro (rfl | ⟨first, before, met⟩)
      · exact ⟨le_rfl, by omega, holds⟩
      · exact ⟨by omega, before, met⟩
    · rintro ⟨first, before, met⟩
      rcases first.eq_or_lt with rfl | later
      · exact .inl rfl
      · exact .inr ⟨later, before, met⟩
  sorted := List.pairwise_cons.2 ⟨fun m hm => ((h.taken_iff m).1 hm).1, h.sorted⟩
  few := Nat.succ_le_succ h.few
  toEnd short := h.toEnd (Nat.lt_of_succ_lt_succ short)
  full whole := by
    have last_eq := h.full (Nat.succ.inj whole)
    cases taken with
    | nil => exact last_eq
    | cons m rest => rw [List.getLast?_cons_cons]; exact last_eq

/-- A walk that passes its first record over goes on with the room it had. -/
theorem pass (h : Walked P (n + 1) stop (room + 1) taken last) (fails : ¬ P n) :
    Walked P n stop (room + 1) taken last where
  starts := by
    have := h.starts
    omega
  ends := h.ends
  taken_iff m := by
    rw [h.taken_iff]
    constructor
    · rintro ⟨first, before, met⟩
      exact ⟨by omega, before, met⟩
    · rintro ⟨first, before, met⟩
      refine ⟨first.lt_of_ne ?_, before, met⟩
      rintro rfl
      exact fails met
  sorted := h.sorted
  few := h.few
  toEnd := h.toEnd
  full whole := by
    have last_eq := h.full whole
    cases taken with
    | nil => cases whole
    | cons m rest => rwa [List.getLast?_cons] at last_eq ⊢

/-- A walk that fills its room ends with the record it takes last. -/
theorem last_eq (h : Walked P n stop (room + 1) taken last) {m : Nat} (hm : taken[room]? = some m) :
    last = m + 1 := by
  have whole : taken.length = room + 1 := by
    have := (List.getElem?_eq_some_iff.1 hm).1
    have := h.few
    omega
  have final : taken.getLast? = some m := by
    rw [List.getLast?_eq_getElem?, whole]
    exact hm
  rw [h.full whole, final]
  rfl

section
variable {start : Cursor} (h : Walked P start.index 960 (room + 1) taken last)
include h

/-- The addresses taken are those of the walk's records of which `P` holds. -/
theorem mem_addresses (first : 1 ≤ start.position) (c : Cursor) : c ∈ taken.map cursorAt ↔
    1 ≤ c.position ∧ c.position ≤ 80 ∧ start.rank ≤ c.rank ∧ c.rank ≤ last ∧ P c.index := by
  rw [List.mem_map, Cursor.rank_eq first]
  constructor
  · rintro ⟨m, hm, rfl⟩
    obtain ⟨past, before, holds⟩ := (h.taken_iff m).1 hm
    have inside : m < 960 := before.trans_le h.ends
    obtain ⟨low, high⟩ := cursorAt_position m
    have rank := cursorAt_rank inside
    have index : (cursorAt m).index = m := Nat.succ.inj ((Cursor.rank_eq low).symm.trans rank)
    exact ⟨low, high, by omega, by omega, index.symm ▸ holds⟩
  · rintro ⟨low, high, past, before, holds⟩
    rw [Cursor.rank_eq low] at past before
    exact ⟨c.index, (h.taken_iff _).2 ⟨by omega, by omega, holds⟩, cursorAt_index low high⟩

/-- They come in table order. -/
theorem sorted_addresses : (taken.map cursorAt).Pairwise fun c d => c.rank < d.rank := by
  have inside {m : Nat} (hm : m ∈ taken) : m < 960 := ((h.taken_iff m).1 hm).2.1.trans_le h.ends
  refine List.pairwise_map.2 (h.sorted.imp_of_mem fun ha hb less => ?_)
  rw [cursorAt_rank (inside ha), cursorAt_rank (inside hb)]
  omega

/-- The one that fills the room is the last record of the walk. -/
theorem last_address {c : Cursor} (hc : (taken.map cursorAt)[room]? = some c) : last = c.rank := by
  rw [List.getElem?_map, Option.map_eq_some_iff] at hc
  obtain ⟨m, hm, rfl⟩ := hc
  have last_eq := h.last_eq hm
  have := h.ends
  rw [cursorAt_rank (by omega), last_eq]

end

end Walked

section
variable (s : State) (since : Nat)

/-- The examining of records is a walk among the records that are installed and stamped above S. -/
theorem State.walkFrom_walked (left n room : Nat) : Walked (fun m => (s.recordAt m).walked since = true)
    n (n + left) room (s.walkFrom since left n room).1 (s.walkFrom since left n room).2 := by
  induction left generalizing n room with
  | zero => exact .nil le_rfl (.inl rfl)
  | succ left ih =>
    cases room with
    | zero => exact .nil (Nat.le_add_right ..) (.inr rfl)
    | succ room =>
      have stop : n + (left + 1) = n + 1 + left := by omega
      rw [State.walkFrom, stop]
      split
      · exact (ih (n + 1) room).take (by assumption)
      · exact (ih (n + 1) (room + 1)).pass (by assumption)

theorem Level.walked_iff (r : Level) :
    r.walked since = true ↔ r.state ≠ .absent ∧ since < r.stamp := by
  simp [Level.walked]

end

/-- A walk reads the records of the table as they stand at its frame's arrival, from the cursor on. -/
theorem State.walkResult_walked {s : State} {l : Link} (first : 1 ≤ (s.link l).cursor.position)
    (last : (s.link l).cursor.position ≤ 80) (since : Nat) :
    Walked (fun m => (s.recordAt m).walked since = true) (s.link l).cursor.index 960 4
      (s.walkResult l since).1 (s.walkResult l since).2 := by
  have walked := s.walkFrom_walked since (tableSize - (s.link l).cursor.index)
    (s.link l).cursor.index 4
  have inside : (s.link l).cursor.index ≤ 960 := by
    have : (s.link l).cursor.valve.val < 12 := (s.link l).cursor.valve.isLt
    simp only [Cursor.index, Config.positionCount]
    omega
  rwa [show (s.link l).cursor.index + (tableSize - (s.link l).cursor.index) = 960 from
    Nat.add_sub_cancel' inside] at walked

/-- The first byte of the data of a WALK reply: the end flag, and the number of records taken. -/
theorem walkByte_eq (last : Nat) {n : Nat} (few : n ≤ 4) :
    flag (last == tableSize) ++ (0 : BitVec 4) ++ BitVec.ofNat 3 n
      = (if last = 960 then 0x80#8 else 0#8) ||| BitVec.ofNat 8 n := by
  have ended : (last == tableSize) = decide (last = 960) := rfl
  rw [ended]
  by_cases h : last = 960 <;> simp only [h, if_true, if_false, decide_true, decide_false] <;>
    interval_cases n <;> rfl

/-- The data of a WALK reply, its addresses spelled out. -/
theorem State.walkData_eq (s : State) {taken : List Nat} (few : taken.length ≤ 4) (last : Nat) :
    s.walkData taken last
      = ((if last = 960 then 0x80#8 else 0#8) ||| BitVec.ofNat 8 (taken.map cursorAt).length)
        :: BitVec.ofNat 8 ((cursorAt last).valve.val + 1) :: BitVec.ofNat 8 (cursorAt last).position
        :: (taken.map cursorAt).flatMap fun c =>
          ((s.valve c.valve).level c.position).bytes (c.valve.val + 1) c.position := by
  rw [State.walkData, walkByte_eq last few, List.length_map, List.flatMap_map]
  rfl

/-! ## The requests -/

theorem addressOf_eq {j p : Byte} {v : Valve} (valve : j.toNat = v.val + 1) (first : 1 ≤ p.toNat)
    (last : p.toNat ≤ 80) : addressOf j p = some (v, p.toNat) := by
  rw [addressOf, if_pos (by simp [inRange, first, last]), valveOf_eq valve]
  rfl

theorem addressOf_none {j p : Byte}
    (h : (∀ v : Valve, j.toNat ≠ v.val + 1) ∨ p.toNat = 0 ∨ 80 < p.toNat) : addressOf j p = none := by
  by_cases range : inRange 1 Config.positionCount p.toNat = true
  · have inside : 1 ≤ p.toNat ∧ p.toNat ≤ 80 := by simpa [inRange] using range
    have outside : ∀ v : Valve, j.toNat ≠ v.val + 1 := by
      rcases h with h | h | h
      · exact h
      · omega
      · omega
    rw [addressOf, if_pos range, valveOf_none outside]
    rfl
  · exact if_neg range

section
variable {s : State} {l : Link} {h : ServiceHead}

theorem State.serveSeek_ok {j p : Byte} {v : Valve} (valve : j.toNat = v.val + 1)
    (first : 1 ≤ p.toNat) (last : p.toNat ≤ 80) :
    s.serveRequest l h (.seek j p)
      = (s.setCursor l { valve := v, position := p.toNat }).replyService l h.address 3 .ok [j, p] := by
  have data : Cursor.bytes { valve := v, position := p.toNat } = [j, p] := by
    simp [Cursor.bytes, byteOf, ← valve]
  simp only [State.serveRequest, State.serveSeek, addressOf_eq valve first last, State.answer, data]
  rfl

theorem State.serveSeek_badAddress {j p : Byte}
    (outside : (∀ v : Valve, j.toNat ≠ v.val + 1) ∨ p.toNat = 0 ∨ 80 < p.toNat) :
    s.serveRequest l h (.seek j p) = s.replyService l h.address 3 .badAddress [] := by
  simp only [State.serveRequest, State.serveSeek, addressOf_none outside]
  rfl

theorem State.serveWalk_noConfig {since : BitVec 32} (outside : s.isReady = false) :
    s.serveRequest l h (.walk since) = s.replyService l h.address 4 .noConfig [] :=
  if_neg (by simp [outside])

theorem State.serveWalk_ok {since : BitVec 32} (ready : s.isReady = true) :
    let taken := (s.walkResult l since.toNat).1
    let last := (s.walkResult l since.toNat).2
    s.serveRequest l h (.walk since) = (s.setCursor l (cursorAt last)).replyService l h.address 4 .ok
      (s.walkData taken last) :=
  if_pos ready

end

/-- Settles O48: a place of the table and its address are one, so the walk through places is the walk
through records. -/
theorem seekAndWalkMoveTheCursor : Obligations.SeekAndWalkMoveTheCursor := by
  intro s t l h live addressed s1 moved rank start
  refine ⟨fun j p intact => ⟨fun v valve first last => ?_, fun outside => ?_⟩, fun since intact =>
    ⟨fun outside => ?_, fun ready first last => ?_⟩⟩
  · exact (exec_command live addressed intact t l).trans
      (congrArg _ (State.serveSeek_ok valve first last))
  · exact (exec_command live addressed intact t l).trans
      (congrArg _ (State.serveSeek_badAddress outside))
  · exact (exec_command live addressed intact t l).trans
      (congrArg _ (State.serveWalk_noConfig ((State.heard_isReady ..).trans outside)))
  · have cursor : (s1.link l).cursor = start := State.heard_cursor ..
    have walked := State.walkResult_walked (s := s1) (l := l) (cursor ▸ first) (cursor ▸ last)
      since.toNat
    have served := State.serveWalk_ok (s := s1) (l := l) (h := h) (since := since)
      ((State.heard_isReady ..).trans ready)
    rw [cursor] at walked
    generalize s1.walkResult l since.toNat = result at walked served
    obtain ⟨places, stop⟩ := result
    have record {c : Cursor} (low : 1 ≤ c.position) (high : c.position ≤ 80) :
        s1.recordAt c.index = (s.valve c.valve).level c.position := by
      rw [State.recordAt, cursorAt_index low high, State.heard_valve]
    refine ⟨places.map cursorAt, stop, cursorAt stop, fun c => ?_, walked.sorted_addresses,
      (List.length_map ..).trans_le walked.few, walked.ends, fun short => ?_,
      fun c hc => walked.last_address hc, fun ended => ?_, fun before => ?_, ?_⟩
    · refine (walked.mem_addresses first c).trans (and_congr_right fun low => and_congr_right fun high =>
        and_congr_right fun _ => and_congr_right fun _ => ?_)
      rw [record low high, Level.walked_iff]
    · exact walked.toEnd (by rwa [List.length_map] at short)
    · rw [ended]
      rfl
    · exact ⟨cursorAt_rank before, cursorAt_position stop⟩
    · have data := s1.walkData_eq walked.few stop
      simp only [s1, State.heard_valve] at data
      refine (exec_command live addressed intact t l).trans (congrArg _ (served.trans ?_))
      rw [← data]
      rfl

end Sys2Proof.Machine
end

section
/-! PROOF. The consistency of the unit (R163, R164, R166) as a command passes through it: what it reads, the
parts that start and stop, and the operations that valves, guard, group and links share. Outside READY every
block is at its values after a reset, so that the operations on valves and group find nothing to act on. -/

namespace Sys2Proof.Machine

open Sys2Proof

/-! ## What consistency reads -/

/-- The unit is consistent within a command: a part that is not READY has no cause waiting to be taken. -/
structure State.Consistent (s : State) : Prop where
  inv : s.UnitInv
  quiet : s.isReady = false → s.handed = []

section
variable {s u : State}

theorem State.UnitInv.of_same (h : s.UnitInv) (same : u = { u with
    unit := s.unit, tracker := s.tracker, counter := s.counter, valves := s.valves
    guard := s.guard, group := s.group, store := s.store }) : u.UnitInv := by
  rw [same]
  exact ⟨h.valid, h.tracker, h.counter, h.valves, h.guard, h.group, h.store⟩

/-- No STORE runs outside READY (R166). -/
theorem State.UnitInv.store_none (h : s.UnitInv) (idle : s.isReady = false) : s.store = none := by
  rw [← State.working_none_iff] at idle
  cases running : s.store with
  | none => rfl
  | some st =>
    rw [State.working_ready (h.store st running)] at idle
    cases idle

/-- A part outside READY that goes to another state outside READY with its blocks as they are. -/
theorem State.UnitInv.of_idle (h : s.UnitInv) (idle : s.isReady = false) (same : u = { u with
    tracker := s.tracker, counter := s.counter, valves := s.valves, guard := s.guard, group := s.group
    store := s.store }) (unready : ∀ im, u.unit ≠ .ready im) : u.UnitInv := by
  have free := h.store_none idle
  rw [← State.working_none_iff] at idle
  rw [same]
  exact ⟨fun im ready => absurd ready (unready im), fun _ => h.tracker idle, fun _ => h.counter idle,
    fun _ => h.valves idle, fun _ => h.guard idle, fun _ => h.group idle,
    fun st running => nomatch free.symm.trans running⟩

/-- In READY only the image in force and the STORE are asked for. -/
theorem State.UnitInv.of_ready {im : Image} (ready : u.unit = .ready im) (valid : imageValid im = true)
    (store : ∀ st, u.store = some st → st.words = im) : u.UnitInv := by
  have working {P : Prop} (absent : u.working = none) : P :=
    nomatch (State.working_ready ready).symm.trans absent
  refine ⟨fun im' ready' => ?_, working, working, working, working, working, fun st running => ?_⟩
  · exact UnitState.ready.inj (ready.symm.trans ready') ▸ valid
  · rw [store st running, ready]

theorem State.Consistent.of_same (h : s.Consistent) (same : u = { u with
    unit := s.unit, tracker := s.tracker, counter := s.counter, valves := s.valves
    guard := s.guard, group := s.group, store := s.store, handed := s.handed }) : u.Consistent := by
  refine ⟨h.inv.of_same (same.trans ?_), ?_⟩
  · rw [same]
  · rw [same]
    exact h.quiet

theorem State.Consistent.of_ready {im : Image} (ready : u.unit = .ready im)
    (valid : imageValid im = true) (store : ∀ st, u.store = some st → st.words = im) :
    u.Consistent :=
  ⟨.of_ready ready valid store, fun idle => nomatch (State.isReady_ready ready).symm.trans idle⟩

/-- A part started under a valid image with no STORE in flight. -/
theorem State.Consistent.of_started {im : Image} (ready : u.unit = .ready im)
    (valid : imageValid im = true) (free : u.store = none) : u.Consistent :=
  .of_ready ready valid fun _ running => nomatch free.symm.trans running

/-- What READY asks for is kept with the unit and the STORE. -/
theorem State.Consistent.of_kept (h : s.Consistent) (ready : s.isReady = true) (unit : u.unit = s.unit)
    (store : u.store = s.store) : u.Consistent := by
  obtain ⟨im, working⟩ := State.isReady_iff.1 ready
  refine .of_ready (unit.trans working) (h.inv.valid im working) fun st running => ?_
  exact UnitState.ready.inj ((h.inv.store st (store ▸ running)).symm.trans working)

/-- An operation on valves, guard and group: outside READY it is to be looked at. -/
theorem State.Consistent.of_rest (h : s.Consistent) (rest : RestKept s u)
    (idle : s.isReady = false → u.Consistent) : u.Consistent := by
  cases ready : s.isReady with
  | false => exact idle ready
  | true =>
    obtain ⟨-, unit, -, -, -, -, -, -, -, store, -⟩ := rest.fields
    exact h.of_kept ready unit store

/-- An operation on valves, guard and group that finds nothing to act on outside READY. -/
theorem State.Consistent.of_served (h : s.Consistent) (rest : RestKept s u)
    (idle : s.isReady = false → u = s) : u.Consistent :=
  h.of_rest rest fun unready => idle unready ▸ h

theorem State.Consistent.valve_idle (h : s.Consistent) (idle : s.isReady = false) (j : Valve) :
    s.valve j = {} := by
  rw [State.valve, h.inv.valves (State.working_none_iff.2 idle)]
  simp

theorem State.Consistent.group_idle (h : s.Consistent) (idle : s.isReady = false) :
    s.group = { refusal := s.group.refusal } := h.inv.group (State.working_none_iff.2 idle)

/-- Only the last refusal of a blocked group may change outside READY (R125). -/
theorem State.Consistent.of_group (h : s.Consistent) (same : u = { u with
      unit := s.unit, tracker := s.tracker, counter := s.counter, valves := s.valves
      guard := s.guard, group := { refusal := u.group.refusal }, store := s.store
      handed := s.handed }) : u.Consistent := by
  have inv := h.inv
  rw [same]
  exact ⟨⟨inv.valid, inv.tracker, inv.counter, inv.valves, inv.guard, fun _ => rfl, inv.store⟩,
    h.quiet⟩

end

/-! ## Starts and resets -/

/-- Every block at its values after a reset, the part not in READY (R164, R167). -/
theorem State.UnitInv.of_blank {u : State} (blank : u = { u with
    tracker := {}, counter := 0, valves := Vector.replicate Config.valveCount {}, guard := {}
    group := {}, store := none }) (unready : ∀ im, u.unit ≠ .ready im) : u.UnitInv :=
  State.reset_unitInv.of_idle rfl blank unready

theorem State.enterReady_consistent {s : State} {im : Image} (valid : imageValid im = true)
    (free : s.store = none) : (s.enterReady im).Consistent := by
  refine .of_started (s.enterReady_started im).1 valid ?_
  rw [State.enterReady, State.beginService_frame, State.startBlocks_frame]
  exact free

theorem State.applyStaging_consistent {s : State} (valid : imageValid s.staging = true)
    (free : s.store = none) : s.applyStaging.Consistent := by
  refine .of_started s.applyStaging_started.1 valid ?_
  rw [State.applyStaging_frame]
  exact free

/-! ## The links -/

section
variable {s : State} (h : s.Consistent)
include h

theorem State.post_consistent (src : Source) (bits : BitVec 12) : (s.post src bits).Consistent :=
  h.of_same rfl

theorem State.modLink_consistent (l : Link) (f : LinkState → LinkState) :
    (s.modLink l f).Consistent := by
  cases l <;> exact h.of_same rfl

theorem State.judgeSilence_consistent (l : Link) : (s.judgeSilence l).Consistent := by
  rw [State.judgeSilence_frame]
  exact h.of_same rfl

theorem State.judgeSelection_consistent (l : Link) (r : Role) :
    (s.judgeSelection l r).Consistent := by
  unfold State.judgeSelection
  split
  · exact h
  · split <;> exact h.of_same rfl

/-- A frame keeps the unit consistent when what serves it does. -/
theorem State.receive_consistent {serve : State → State}
    (hs : ∀ w : State, w.Consistent → (serve w).Consistent) (l : Link) (bytes : List Byte)
    (r : Role) : (s.receive l bytes r serve).Consistent := by
  unfold State.receive
  split
  · exact State.post_consistent (State.modLink_consistent h ..) ..
  · exact State.modLink_consistent h ..
  · exact hs _ (State.judgeSelection_consistent (State.modLink_consistent h ..) ..)

theorem State.replyStatus_consistent (l : Link) (a : BitVec 6) : (s.replyStatus l a).Consistent := by
  obtain ⟨f, reply⟩ := s.replyStatus_frame l a
  exact reply ▸ State.modLink_consistent h l f

theorem State.replyService_consistent (l : Link) (a : BitVec 6) (code : BitVec 4)
    (result : ServiceResult) (data : List Byte) :
    (s.replyService l a code result data).Consistent := by
  obtain ⟨f, reply⟩ := s.replyService_frame l a code result data
  rw [reply]
  exact (State.modLink_consistent h l f).of_same rfl

/-! ## Orders -/

theorem State.settle_consistent : s.settle.Consistent :=
  h.of_served s.settle_rest fun idle => State.settle_nil (h.quiet idle)

/-- Outside READY the trip cause set is empty, and clearing it leaves it so. -/
theorem State.clearTrips_consistent : s.clearTrips.Consistent := by
  refine h.of_rest s.clearTrips_rest fun idle => h.of_group ?_
  have group := h.group_idle idle
  rw [State.clearTrips, if_pos (by rw [group]), group]
  rfl

/-- Outside READY a requested mode is refused at most (R125). -/
theorem State.judgeRequest_consistent (r : Requested) : (s.judgeRequest r).Consistent := by
  refine h.of_rest (s.judgeRequest_rest r) fun idle => ?_
  rw [State.judgeRequest_unready idle]
  split
  · exact h
  · refine h.of_group ?_
    rw [State.refuse, h.group_idle idle]
    rfl

theorem State.serveOrder_consistent (l : Link) (f : OrderFrame) : (s.serveOrder l f).Consistent := by
  have taken : (s.takeOrder f).Consistent := by
    have ordered : ({ s with
        order := { alpha := f.alpha, requested := requestedOf f.mode }
        lastTaken := some s.timebase, limitPassed := false } : State).Consistent := h.of_same rfl
    unfold State.takeOrder
    simp only
    refine State.settle_consistent (State.judgeRequest_consistent ?_ _)
    split
    · exact State.clearTrips_consistent ordered
    · exact ordered
  unfold State.serveOrder
  refine State.replyStatus_consistent ?_ ..
  split
  · exact taken
  · exact h

end

end Sys2Proof.Machine
end

section
/-! PROOF. The frame of requests, messages and take-ups, and the requests: a refused one changes no block, and
a STORE and an APPLY exclude each other (R161, R162, R165, R166). -/

namespace Sys2Proof.Machine

open Sys2Proof

/-! ## The frame of the requests, messages and firings -/

theorem State.stampLevel_rest (s : State) (v : Valve) (p : Nat) (l : Level) :
    RestKept s (s.stampLevel v p l) := by
  rw [State.stampLevel_eq]
  exact s.replaceLevel_rest ..

theorem State.retireLevel_rest (s : State) (k : Link) (v : Valve) (p : Nat) :
    RestKept s (s.retireLevel k v p) := by
  unfold State.retireLevel
  simp only
  refine .trans (.trans ?_ (State.handChange_rest ..)) (State.settle_rest _)
  split
  · exact (s.stampLevel_rest ..).trans (State.modValve_rest ..)
  · exact s.stampLevel_rest ..

theorem State.restoreLevel_rest (s : State) (v : Valve) (p : Nat) :
    RestKept s (s.restoreLevel v p) :=
  ((s.stampLevel_rest ..).trans (State.handChange_rest ..)).trans (State.settle_rest _)

theorem State.modChannel_rest (s : State) (j : Valve) (f : Channel → Channel) :
    RestKept s (s.modChannel j f) := s.modValve_rest ..

theorem State.countNoise_rest (s : State) (im : Image) (j : Valve) :
    RestKept s (s.countNoise im j) := by
  unfold State.countNoise
  simp only
  split
  · exact (s.modChannel_rest ..).trans (State.post_rest ..)
  · exact s.modChannel_rest ..

theorem State.messageArrives_rest (s : State) (j : Valve) (m : Option Inbound) :
    RestKept s (s.messageArrives j m) := by
  have heard := s.superviseMessage_rest j
  have taken (cls : ReportClass) (r : PulseReport) :
      RestKept s ((s.superviseMessage j).takeReport j r.position cls r.stamp).settle :=
    (heard.trans (State.takeReport_rest ..)).trans (State.settle_rest _)
  unfold State.messageArrives State.takePulseReport
  split
  · exact .refl s
  · split
    · exact s.modChannel_rest ..
    · exact heard
    · split
      · exact heard.trans (State.countNoise_rest ..)
      · exact taken .ind _
      · exact taken .pfi _
      · exact taken .lft _

theorem State.takeUp_rest (s : State) (j : Valve) (z : Instant) (rest : List Instant) :
    RestKept s (s.takeUp j z rest) := by
  have taken : RestKept s (s.takeZero j z rest) := by
    rw [State.takeZero_eq]
    exact s.setValve_rest ..
  have scheduled (w : State) : RestKept w (w.scheduleFiring j) := by
    rw [State.scheduleFiring_eq rfl rfl rfl rfl]
    exact w.setValve_rest ..
  unfold State.takeUp
  split
  · refine (taken.trans ?_).trans (scheduled _)
    unfold State.pullIn
    split
    · exact (State.issue_rest ..).trans (State.post_rest ..)
    · exact .refl _
  · refine taken.trans ?_
    unfold State.closeAtTakeUp
    split
    · exact State.closeInterval_rest ..
    · exact .refl _

theorem State.checkReadiness_rest (s : State) (j : Valve) (f : Instant) :
    RestKept s (s.checkReadiness j f) := by
  unfold State.checkReadiness
  simp only
  split
  · exact s.setValve_rest ..
  · exact s.issue_rest ..

/-! ## Requests -/

section
variable {s : State} (h : s.Consistent)
include h

theorem State.change_consistent (l : Link) (q : ServiceHead) (code : BitVec 4)
    {run : State → State × ServiceResult × List Byte} (hr : (run s).1.Consistent) :
    (s.change l q code run).Consistent := by
  unfold State.change
  split
  · exact State.replyService_consistent hr ..
  · exact State.replyService_consistent h ..

theorem State.retireRequest_consistent (k : Link) (j p : Byte) :
    (s.retireRequest k j p).1.Consistent := by
  refine h.of_served ?_ fun idle => by simp [State.retireRequest, idle]
  unfold State.retireRequest
  split
  · exact .refl s
  · split
    · exact .refl s
    · split
      · exact .refl s
      · exact s.retireLevel_rest ..

theorem State.restoreRequest_consistent (j p : Byte) : (s.restoreRequest j p).1.Consistent := by
  refine h.of_served ?_ fun idle => by simp [State.restoreRequest, idle]
  unfold State.restoreRequest
  split
  · exact .refl s
  · split
    · exact .refl s
    · split
      · exact s.restoreLevel_rest ..
      · exact .refl s

theorem State.clearCountsRequest_consistent (j p : Byte) :
    (s.clearCountsRequest j p).1.Consistent := by
  refine h.of_served ?_ fun idle => by simp [State.clearCountsRequest, idle]
  unfold State.clearCountsRequest
  split
  · exact .refl s
  · split
    · exact .refl s
    · exact s.stampLevel_rest ..

theorem State.configWriteRequest_consistent (a n : Byte) (data : Vector Word16 8) :
    (s.configWriteRequest a n data).1.Consistent := by
  unfold State.configWriteRequest
  split
  · exact h
  · split
    · exact h.of_same rfl
    · exact h

/-- No image changes under a STORE: an APPLY finds none in flight (R162). -/
theorem State.configApplyRequest_consistent : s.configApplyRequest.1.Consistent := by
  unfold State.configApplyRequest
  split
  · exact h
  · rename_i free
    split
    · exact h
    · split
      · exact h
      · split
        · rename_i valid
          exact State.applyStaging_consistent valid (Option.not_isSome_iff_eq_none.1 free)
        · exact h

/-- A STORE begins with the words of the working image (R166). -/
theorem State.configStoreRequest_consistent : s.configStoreRequest.1.Consistent := by
  unfold State.configStoreRequest
  split
  · exact h
  · split
    · exact h
    · rename_i im working
      have ready := State.ready_of_working working
      split
      · exact .of_ready ready (h.inv.valid im ready) fun st begun => by cases begun; rfl
      · exact h

theorem State.serveReset_consistent (l : Link) (q : ServiceHead) : (s.serveReset l q).Consistent := by
  unfold State.serveReset
  split
  · split
    · exact State.replyService_consistent h ..
    · exact ⟨.of_blank rfl nofun, fun _ => rfl⟩
  · exact State.replyService_consistent h ..

theorem State.serveRequest_consistent (l : Link) (q : ServiceHead) (r : Request) :
    (s.serveRequest l q r).Consistent := by
  have moved (c : Cursor) : (s.setCursor l c).Consistent := State.modLink_consistent h l _
  cases r with
  | lookUpLevel j p => exact State.replyService_consistent h ..
  | lookUpValve j => exact State.replyService_consistent h ..
  | seek j p =>
    unfold State.serveRequest State.serveSeek
    simp only
    split
    · exact State.replyService_consistent h ..
    · exact State.replyService_consistent (moved _) ..
  | walk since =>
    unfold State.serveRequest State.serveWalk
    simp only
    split
    · exact State.replyService_consistent (moved _) ..
    · exact State.replyService_consistent h ..
  | retire j p => exact State.change_consistent h l q _ (State.retireRequest_consistent h l j p)
  | restore j p => exact State.change_consistent h l q _ (State.restoreRequest_consistent h j p)
  | clearCounts j p =>
    exact State.change_consistent h l q _ (State.clearCountsRequest_consistent h j p)
  | configRead a n => exact State.replyService_consistent h ..
  | configWrite a n data =>
    exact State.change_consistent h l q _ (run := fun s =>
      ((s.configWriteRequest a n data).1, (s.configWriteRequest a n data).2, []))
      (State.configWriteRequest_consistent h a n data)
  | configApply =>
    exact State.change_consistent h l q _ (run := fun s =>
      (s.configApplyRequest.1, s.configApplyRequest.2, [])) (State.configApplyRequest_consistent h)
  | configStore =>
    exact State.change_consistent h l q _ (run := fun s =>
      (s.configStoreRequest.1, s.configStoreRequest.2, [])) (State.configStoreRequest_consistent h)
  | reset => exact State.serveReset_consistent h l q

theorem State.receiveBytes_consistent (l : Link) (bytes : List Byte) :
    (s.receiveBytes l bytes).Consistent := by
  unfold State.receiveBytes
  split
  · exact State.receive_consistent h (fun w hw => State.serveOrder_consistent hw l _) ..
  · split
    · exact State.receive_consistent h (fun w hw => State.serveRequest_consistent hw l _ _) ..
    · exact State.receive_consistent h (fun w hw => hw) ..

end

end Sys2Proof.Machine
end

section
/-! PROOF. Every command keeps the unit consistent (R163, R164, R166). -/

namespace Sys2Proof.Machine

open Sys2Proof

/-! ## The commands one by one -/

theorem State.isReady_of_loading {s : State} {began : Instant} (loading : s.unit = .loading began) :
    s.isReady = false := by simp [State.isReady, State.working, loading]

theorem State.isReady_of_held {s : State} {h : Hold} (held : s.unit = .held h) : s.isReady = false := by
  simp [State.isReady, State.working, held]

/-- With no configuration in force the no-action limit is not judged (R149). -/
theorem State.noActionReached_ready {w : State} (reached : w.noActionReached = true) :
    w.isReady = true := by
  unfold State.noActionReached at reached
  split at reached
  · exact State.isReady_ready (State.ready_of_working (by assumption))
  · cases reached

/-- The end of a STORE (R166). -/
theorem State.Consistent.endsStore {w : State} (hw : w.Consistent) (result : StoredResult)
    (sent : List Sent) :
    ({ w with store := none, stored := result, sent := sent } : State).Consistent := by
  obtain ⟨inv, quiet⟩ := hw
  exact ⟨⟨inv.valid, inv.tracker, inv.counter, inv.valves, inv.guard, inv.group, nofun⟩, quiet⟩

section
variable {s u : State} {t : Instant} (h : s.UnitInv)
include h

theorem State.UnitInv.of_atTick {f : State → State} (run : s.atTick t f = .next u)
    (hf : ∀ w : State, w.Consistent → (f w).Consistent) : u.UnitInv := by
  rcases State.atTick_next run with rfl | ⟨-, rfl⟩
  · exact h
  · exact (hf (s.atInstant t) ⟨h.of_same rfl, fun _ => rfl⟩).inv

/-- A command of valves, guard and group that finds nothing to act on outside READY. -/
theorem State.UnitInv.of_served {f : State → State} (run : s.atTick t f = .next u)
    (rest : ∀ w, RestKept w (f w))
    (idle : ∀ w : State, w.Consistent → w.isReady = false → f w = w) : u.UnitInv :=
  h.of_atTick run fun w hw => hw.of_served (rest w) (idle w hw)

/-- A command of the reference input moves the input and the detector alone, the detector in READY. -/
theorem State.UnitInv.of_inputMoves {high : Bool} {act : Image → State → State}
    (ha : ∀ im w, ∃ d b, act im w = w.setDetector d b) (run : s.inputMoves t high act = .next u) :
    u.UnitInv := by
  unfold State.inputMoves at run
  split at run
  · cases run
    exact h.of_same rfl
  · rename_i im ready
    rw [State.atTick_live (State.live_ready ready)] at run
    obtain ⟨d, b, sets⟩ := ha im (s.atInstant t)
    cases run
    rw [sets]
    exact .of_ready ready (h.valid im ready) fun st running =>
      UnitState.ready.inj ((h.store st running).symm.trans ready)
  · exact h.of_atTick run fun w hw => hw.of_same rfl

theorem State.UnitInv.resetEnd {e : ResetEnd} (run : execResetEnd s e = .next u) : u.UnitInv := by
  unfold execResetEnd at run
  split at run
  · rename_i hold held
    split at run <;>
    · cases run
      exact h.of_idle (State.isReady_of_held held) rfl nofun
  · cases run
    exact h

theorem State.UnitInv.loadingReadDone {words : Image}
    (run : execLoadingReadDone t words s = .next u) : u.UnitInv := by
  refine h.of_atTick run fun w hw => ?_
  split
  · rename_i began loading
    have idle := State.isReady_of_loading loading
    split
    · simp only
      split
      · rename_i valid
        exact State.enterReady_consistent valid (hw.inv.store_none idle)
      · exact ⟨hw.inv.of_idle idle rfl nofun, fun _ => hw.quiet idle⟩
    · exact hw
  · exact hw

theorem State.UnitInv.loadingTimeout (run : execLoadingTimeout t s = .next u) : u.UnitInv := by
  refine h.of_atTick run fun w hw => ?_
  split
  · rename_i began loading
    have idle := State.isReady_of_loading loading
    split
    · exact ⟨hw.inv.of_idle idle rfl nofun, fun _ => hw.quiet idle⟩
    · exact hw
  · exact hw

theorem State.UnitInv.crossingCandidate (run : execCrossingCandidate t s = .next u) : u.UnitInv :=
  h.of_inputMoves (fun im w => by
    split
    · exact ⟨_, _, rfl⟩
    · exact w.breakLowRun_sets im t) run

theorem State.UnitInv.candidateDropped (run : execCandidateDropped t s = .next u) : u.UnitInv :=
  h.of_inputMoves (fun im w => by
    split
    · split
      · exact ⟨_, _, rfl⟩
      · exact ⟨_, _, w.setDetector_self⟩
    · exact w.startLowRun_sets t) run

theorem State.UnitInv.crossingConfirmed (run : execCrossingConfirmed t s = .next u) : u.UnitInv := by
  refine h.of_atTick run fun w hw => ?_
  split
  · rename_i im t0 working _
    split
    · obtain ⟨-, unit, -, -, -, -, -, -, -, store, -⟩ :=
        ((w.setDetector (.disarmed none) true).judgeCrossing_rest im t0).fields
      exact hw.of_kept (State.isReady_ready (State.ready_of_working working)) unit store
    · exact hw
  · exact hw

theorem State.UnitInv.detectorRearm (run : execDetectorRearm t s = .next u) : u.UnitInv := by
  refine h.of_atTick run fun w hw => ?_
  split
  · rename_i im tl working _
    split
    · exact hw.of_kept (State.isReady_ready (State.ready_of_working working)) rfl rfl
    · exact hw
  · exact hw

theorem State.UnitInv.deadlineReached (run : execDeadlineReached t s = .next u) : u.UnitInv := by
  refine h.of_served run (fun w => ?_) fun w hw idle => by simp [State.working_none_iff.2 idle]
  split
  · split
    · exact (State.synthetic_rest ..).trans (State.handReference_rest ..)
    · exact .refl w
  · exact .refl w

section
variable {j : Valve}

theorem State.UnitInv.takeUp (run : execTakeUp t j s = .next u) : u.UnitInv := by
  refine h.of_served run (fun w => ?_) fun w hw idle => by simp [hw.valve_idle idle]
  split
  · exact .refl w
  · split
    · exact (w.takeUp_rest j _ _).trans (State.settle_rest _)
    · exact .refl w

theorem State.UnitInv.firingInstant (run : execFiringInstant t j s = .next u) : u.UnitInv := by
  refine h.of_served run (fun w => ?_) fun w hw idle => by simp [hw.valve_idle idle]
  split
  · split
    · exact (w.checkReadiness_rest ..).trans (State.settle_rest _)
    · exact .refl w
  · exact .refl w

theorem State.UnitInv.forcedFiring (run : execForcedFiring t j s = .next u) : u.UnitInv := by
  refine h.of_served run (fun w => ?_) fun w hw idle => by simp [hw.valve_idle idle]
  split
  · split
    · exact ((w.issue_rest ..).trans (State.post_rest ..)).trans (State.settle_rest _)
    · exact .refl w
  · exact .refl w

theorem State.UnitInv.extinctionDeadline (run : execExtinctionDeadline t j s = .next u) :
    u.UnitInv := by
  refine h.of_served run (fun w => ?_) fun w hw idle => by simp [hw.valve_idle idle]
  split
  · split
    · exact (w.modValve_rest ..).trans (State.failCommutation_rest ..)
    · exact .refl w
  · exact .refl w

theorem State.UnitInv.channelDown (run : execChannelDown t j s = .next u) : u.UnitInv := by
  refine h.of_served run (fun w => ?_) fun w hw idle => by simp [State.working_none_iff.2 idle]
  split
  · split
    · exact (((w.modValve_rest j _).trans (State.post_rest ..)).trans (State.hand_rest ..)).trans
        (State.settle_rest _)
    · exact .refl w
  · exact .refl w

theorem State.UnitInv.vc12Idle (run : execVc12Idle t j s = .next u) : u.UnitInv := by
  refine h.of_served run (fun w => ?_) fun w hw idle => by simp [State.working_none_iff.2 idle]
  split
  · split
    · exact w.sendIdle_rest j
    · exact .refl w
  · exact .refl w

theorem State.UnitInv.message {m : Option Inbound}
    (run : s.atTick t (State.messageArrives j m) = .next u) : u.UnitInv :=
  h.of_served run (fun w => w.messageArrives_rest j m) fun _ _ idle =>
    State.messageArrives_unserved idle j m

end

theorem State.UnitInv.bypassGating (run : execBypassGating t s = .next u) : u.UnitInv := by
  refine h.of_served run (fun w => ?_) fun w hw idle => by rw [hw.group_idle idle]
  split
  · split
    · refine .trans ?_ (State.settle_rest _)
      exact w.fireLegs_rest.trans (State.update_rest _ _ _ _ w.fireLegs.tracker _ _)
    · exact .refl w
  · exact .refl w

theorem State.UnitInv.controlLoss (run : execControlLoss t s = .next u) : u.UnitInv := by
  refine h.of_atTick run fun w hw => ?_
  split
  · rename_i reached
    have passed : ({ w with limitPassed := true } : State).Consistent := hw.of_same rfl
    simp only
    split
    · exact passed
    · obtain ⟨-, unit, -, -, -, -, -, -, -, store, -⟩ :=
        (({ w with limitPassed := true } : State).hand .controlLoss).settle_rest.fields
      exact hw.of_kept (State.noActionReached_ready reached) unit store
  · exact hw

theorem State.UnitInv.replySent {l : Link} (run : execReplySent t l s = .next u) : u.UnitInv := by
  refine h.of_atTick run fun w hw => ?_
  split
  · exact hw
  · exact (State.modLink_consistent hw l _).of_same rfl

theorem State.UnitInv.storeComplete (run : execStoreComplete t s = .next u) : u.UnitInv := by
  refine h.of_atTick run fun w hw => ?_
  split
  · split
    · exact hw.endsStore ..
    · exact hw
  · exact hw

theorem State.UnitInv.storeFailed {why : StoreFault} (run : execStoreFailed t why s = .next u) :
    u.UnitInv := by
  refine h.of_atTick run fun w hw => ?_
  split
  · split
    · exact hw.endsStore .failed w.sent
    · exact hw
  · exact hw

theorem State.UnitInv.request {l : Link} {q : ServiceHead} {r : Request} {bytes : List Byte}
    {role : Role}
    (run : s.atTick t (State.receive l bytes role (State.serveRequest l q r)) = .next u) :
    u.UnitInv :=
  h.of_atTick run fun _ hw =>
    State.receive_consistent hw (fun _ hw => State.serveRequest_consistent hw l q r) ..

/-- Every command keeps the unit consistent. -/
theorem State.UnitInv.exec {i : Instr} (run : exec i s = .next u) : u.UnitInv := by
  cases i with
  | powerOnReset => cases run; exact .of_blank rfl nofun
  | resetPin => cases run; exact .of_blank rfl nofun
  | resetEnd e => exact h.resetEnd run
  | loadingReadDone t words => exact h.loadingReadDone run
  | loadingTimeout t => exact h.loadingTimeout run
  | crossingCandidate t => exact h.crossingCandidate run
  | candidateDropped t => exact h.candidateDropped run
  | crossingConfirmed t => exact h.crossingConfirmed run
  | detectorRearm t => exact h.detectorRearm run
  | deadlineReached t => exact h.deadlineReached run
  | takeUp t j => exact h.takeUp run
  | firingInstant t j => exact h.firingInstant run
  | forcedFiring t j => exact h.forcedFiring run
  | extinctionDeadline t j => exact h.extinctionDeadline run
  | pulseReport t j body => exact h.message run
  | oiuIdle t j body => exact h.message run
  | channelDown t j => exact h.channelDown run
  | vc12Idle t j => exact h.vc12Idle run
  | bypassGating t => exact h.bypassGating run
  | linkSilence t l => exact h.of_atTick run fun _ hw => State.judgeSilence_consistent hw l
  | controlLoss t => exact h.controlLoss run
  | orderFrame t l f =>
    exact h.of_atTick run fun _ hw =>
      State.receive_consistent hw (fun _ hw => State.serveOrder_consistent hw l f) ..
  | replySent t l => exact h.replySent run
  | lookUpLevel t l q j p => exact h.request (r := .lookUpLevel j p) run
  | lookUpValve t l q j => exact h.request (r := .lookUpValve j) run
  | seek t l q j p => exact h.request (r := .seek j p) run
  | walk t l q since => exact h.request (r := .walk since) run
  | retire t l q j p => exact h.request (r := .retire j p) run
  | restore t l q j p => exact h.request (r := .restore j p) run
  | clearCounts t l q j p => exact h.request (r := .clearCounts j p) run
  | configRead t l q a n => exact h.request (r := .configRead a n) run
  | configWrite t l q a n data => exact h.request (r := .configWrite a n data) run
  | configApply t l q => exact h.request (r := .configApply) run
  | configStore t l q => exact h.request (r := .configStore) run
  | serviceReset t l q => exact h.request (r := .reset) run
  | storeComplete t => exact h.storeComplete run
  | storeFailed t why => exact h.storeFailed run
  | lowRunStart t => exact h.of_inputMoves (fun _ w => w.startLowRun_sets t) run
  | lowRunBroken t => exact h.of_inputMoves (fun im w => w.breakLowRun_sets im t) run
  | messageOfUnknownKind t j msg => exact h.message run
  | discardedFrameArrives t l bytes =>
    exact h.of_atTick run fun _ hw => State.receiveBytes_consistent hw l bytes

end

/-- Settles O55, command by command; a tick moves the timebase alone. -/
theorem stepsKeepTheUnitConsistent : Obligations.StepsKeepTheUnitConsistent := by
  intro s u inv run
  unfold step at run
  split at run
  · cases run
    unfold State.tick
    split
    · exact inv
    · exact inv.of_same rfl
  · rename_i c rest _
    have popped : ({ s with pending := rest } : State).UnitInv := inv.of_same rfl
    exact popped.exec run

end Sys2Proof.Machine
end

section
/-! PROOF. A part held in reset (R167). -/

namespace Sys2Proof.Machine

open Sys2Proof

/-- In reset the reference input moves, and nothing else (R167). -/
theorem State.inputMoves_held {s : State} {h : Hold} (held : s.unit = .held h) (t : Instant)
    (high : Bool) (act : Image → State → State) :
    s.inputMoves t high act = .next { s with refHigh := high } := by
  unfold State.inputMoves
  rw [held]

/-- Settles O4: the rows of the input move the level, every other command but a reset's comes at a tick. -/
theorem heldPartChangesNothing : Obligations.HeldPartChangesNothing := by
  intro s h i held notPower notPin notEnd
  cases i with
  | powerOnReset => exact absurd rfl notPower
  | resetPin => exact absurd rfl notPin
  | resetEnd e => exact absurd rfl (notEnd e)
  | crossingCandidate t => exact State.inputMoves_held held t true _
  | candidateDropped t => exact State.inputMoves_held held t false _
  | lowRunStart t => exact State.inputMoves_held held t false _
  | lowRunBroken t => exact State.inputMoves_held held t true _
  | _ =>
    unfold exec
    exact State.atTick_held held _ _

end Sys2Proof.Machine
end

section
/-! PROOF. The validity of an image word by word, and the end of the configuration read (R163, R164). -/

namespace Sys2Proof.Machine

open Sys2Proof

/-! ## The three checks (R163) -/

theorem parametersRead_all (im : Image) : parametersRead im := by
  refine ⟨rfl, rfl, rfl, fun j => ⟨rfl, rfl, rfl⟩, ?_⟩
  repeat' apply And.intro
  all_goals rfl

/-- The words added in their order are the sum of the 64 words. -/
theorem imageSum_eq (im : Image) : imageSum im = ((List.range 64).map (wordOf im)).sum % 65536 := by
  have words : im.toList.map BitVec.toNat = (List.range 64).map (wordOf im) := by
    refine List.ext_getElem (by simp) fun k hk _ => ?_
    have inImage : k < 64 := by simpa using hk
    simp [wordOf, inImage]
  unfold imageSum
  rw [← words, List.sum_eq_foldl, List.foldl_map]

theorem valveInRange_iff (im : Image) (j : Valve) :
    valveInRange im j = true ↔ valveWordsFit im j := by
  obtain ⟨-, -, -, valve, -⟩ := parametersRead_all im
  obtain ⟨nv, rv, ptv⟩ := valve j
  simp only [valveInRange, valveWordsFit, inRange_iff, Bool.and_eq_true, decide_eq_true_eq, nv, rv, ptv]
  omega

/-- The words of the windows and NOISELIM, one by one. -/
theorem forall_window_words (P : Nat → Prop) : (∀ k, 56 ≤ k → k ≤ 62 → P k)
    ↔ P 56 ∧ P 57 ∧ P 58 ∧ P 59 ∧ P 60 ∧ P 61 ∧ P 62 := by
  refine ⟨fun h => by simp [h], fun ⟨h56, h57, h58, h59, h60, h61, h62⟩ k low high => ?_⟩
  interval_cases k <;> assumption

theorem groupInRange_iff (im : Image) :
    (groupInRange im && windowsInRange im) = true ↔ groupWordsFit im := by
  obtain ⟨gaddr, nomf, phi0, -, amin, amax, gmin, advmax, advdec, guard, msus, mdark, qwait, refsp,
    byptrip, cflim, tconf, holdmax, tsil, tnoact, wil, wih, gl, gh, wll, wlh, noiselim, -⟩ :=
    parametersRead_all im
  simp only [groupInRange, windowsInRange, groupWordsFit, forall_window_words, inRange_iff,
    Bool.and_eq_true, Bool.or_eq_true, decide_eq_true_eq, beq_iff_eq, gaddr, nomf, phi0, amin, amax,
    gmin, advmax, advdec, guard, msus, mdark, qwait, refsp, byptrip, cflim, tconf, holdmax, tsil,
    tnoact, wil, wih, gl, gh, wll, wlh, noiselim]
  omega

theorem imageValid_iff (im : Image) : imageValid im = true
    ↔ wordOf im 0 = 1 ∧ ((List.range 64).map (wordOf im)).sum % 65536 = 0
      ∧ groupWordsFit im ∧ ∀ j, valveWordsFit im j := by
  have word : imageWord im 0 = wordOf im 0 := rfl
  rw [← imageSum_eq, ← groupInRange_iff]
  simp only [imageValid, Bool.and_eq_true, beq_iff_eq, List.all_eq_true, List.mem_finRange,
    forall_const, valveInRange_iff, word]
  tauto

/-! ## The end of the read (R164) -/

/-- Every block as an entry to READY leaves it; only the links are named by what they are. -/
theorem State.enterReady_frame (s : State) (im : Image) : s.enterReady im = { s with
    unit := .ready im
    tracker := Tracker.started im s.refHigh s.timebase
    counter := 0
    valves := Vector.ofFn fun j => ValveRecord.started im j (some s.timebase)
    guard := {}
    linkA := (s.enterReady im).linkA
    linkB := (s.enterReady im).linkB
    sent := idlesSent s.timebase ++ s.sent } := by
  unfold State.enterReady
  rw [State.beginService_frame, State.startBlocks_frame]
  simp [State.valve, ValveRecord.started, ValveRecord.withLastSend, idlesSent]

theorem State.enterReady_link (s : State) (im : Image) (l : Link) :
    (s.enterReady im).link l = (s.startBlocks im).link l := by
  rw [State.enterReady, State.beginService_frame]
  cases l <;> rfl

theorem State.enterReady_word (s : State) (im : Image) (l : Link) (src : Source) :
    (s.enterReady im).word l src = (s.startBlocks im).word l src := by
  rw [State.word, State.enterReady_link]
  rfl

/-- A link is silent after an entry to READY when its limit has passed under the new TSIL (R145). -/
theorem State.enterReady_silent (s : State) (im : Image) (l : Link) :
    (s.enterReady im).link l = { s.link l with
      silent := (s.link l).silent || (s.link l).overdue s.timebase (Par.tsil im * 1000)
      attention := ((s.enterReady im).link l).attention } := by
  rw [State.enterReady_link, State.startBlocks_link]

/-- The words that an entry to READY posts: SEEKING and the links that became silent (R17, R145). -/
theorem State.enterReady_posted (s : State) (im : Image) :
    let late (l : Link) := (s.link l).overdue s.timebase (Par.tsil im * 1000)
    Posted s (s.enterReady im) .sync syncSeeking
    ∧ Posted s (s.enterReady im) .link
        ((if late .a then linkASilent else 0) ||| if late .b then linkBSilent else 0)
    ∧ ∀ l src, src ≠ .sync → src ≠ .link → (s.enterReady im).word l src = s.word l src := by
  refine ⟨fun l => ?_, fun l => ?_, fun l src notSync notLink => ?_⟩
  · rw [State.enterReady_word, State.startBlocks_word, State.post_word, if_pos rfl, if_neg (by decide)]
    exact BitVec.or_zero
  · rw [State.enterReady_word, State.startBlocks_word, State.post_word, if_neg (by decide), if_pos rfl]
    rfl
  · rw [State.enterReady_word, State.startBlocks_word, State.post_word, if_neg notSync, if_neg notLink]
    exact BitVec.or_zero

/-- The part when the words of the read have reached the staging image (R164). -/
def State.wordsRead (s : State) (t : Instant) (words : Image) : State :=
  { s.atInstant t with staging := words }

@[simp] theorem State.wordsRead_link (s : State) (t : Instant) (words : Image) (l : Link) :
    (s.wordsRead t words).link l = s.link l := by cases l <;> rfl

@[simp] theorem State.wordsRead_word (s : State) (t : Instant) (words : Image) (l : Link)
    (src : Source) : (s.wordsRead t words).word l src = s.word l src := by
  rw [State.word, State.wordsRead_link, State.word]

section
variable {s : State} {began : Instant} (loading : s.unit = .loading began) (t : Instant)
include loading

theorem State.live_of_loading : s.live := fun _ held => nomatch loading.symm.trans held

theorem exec_loadingReadDone {words : Image} (inTime : span began t ≤ 500000) :
    exec (.loadingReadDone t words) s
      = .next (if imageValid words
          then (s.wordsRead t words).enterReady words
          else { s.wordsRead t words with unit := .configFault }) := by
  rw [exec, execLoadingReadDone, State.atTick_live (State.live_of_loading loading)]
  simp only [State.atInstant_unit, loading, Config.loadingSpan, if_pos inTime]
  rfl

theorem exec_loadingTimeout (late : reached t (after began 500000) = true) :
    exec (.loadingTimeout t) s = .next { s.atInstant t with
      unit := .configFault, staging := Vector.replicate 64 0 } := by
  rw [exec, execLoadingTimeout, State.atTick_live (State.live_of_loading loading)]
  simp only [State.atInstant_unit, loading, Config.loadingSpan, if_pos late]

end

/-- Settles O5: the checks of an image word by word, and the three ends of the read. -/
theorem configurationReadEnds : Obligations.ConfigurationReadEnds := by
  refine ⟨fun im => ⟨parametersRead_all im, imageValid_iff im⟩, fun s t began words loading =>
    ⟨fun inTime valid => ?_, fun inTime invalid => ?_, exec_loadingTimeout loading t⟩⟩
  · have frame := (s.wordsRead t words).enterReady_frame words
    have posted := (s.wordsRead t words).enterReady_posted words
    simp only [ValveRecord.started_eq] at frame
    simp only [Posted, State.wordsRead_link, State.wordsRead_word] at posted
    refine ⟨(s.wordsRead t words).enterReady words, ?_, frame, fun l => ?_, posted⟩
    · rw [exec_loadingReadDone loading t inTime, if_pos valid]
    · rw [State.enterReady_silent, State.wordsRead_link]
      rfl
  · rw [exec_loadingReadDone loading t inTime, invalid]
    rfl

end Sys2Proof.Machine
end

section
/-! PROOF. A step on a queue that holds a command. -/

namespace Sys2Proof.Machine

open Sys2Proof

/-- Settles O1: with a command in front, `step` takes the branch of a queue that is not empty. -/
theorem stepTakesTheFrontCommand : Obligations.StepTakesTheFrontCommand := by
  intro s c rest front
  rw [step, front]

end Sys2Proof.Machine
end
